-- ==== Sys2Proof/Word.lean ====
section
/-! DEFINITION. The widths the block moves (R7, R39): bytes, 16-bit values and 32-bit command words. -/

namespace Sys2Proof

/-- A byte: an 8-bit unsigned value (R7). -/
abbrev Byte := BitVec 8

/-- A `u16`: a 16-bit unsigned value (R7); the CRC registers, results and the STATUS word. -/
abbrev U16 := BitVec 16

/-- One 32-bit command word (R47). -/
abbrev Word := BitVec 32

end Sys2Proof
end

