-- ==== Sys2Proof/Syntax.lean ====
section
/-! DEFINITION. The commands of R49, one constructor per row of the opcode table. -/

namespace Sys2Proof

/-- A command. Operands have exactly the width their form gives them (R48), so every value of this type is
well formed: a byte for form B, a u16 for form H, three bits for form M. -/
inductive Instr where
  | nop
  | crcInit
  | crcByte (d : Byte)
  | crcRead
  | crcVerify (k : U16)
  | txStart
  | txByte (d : Byte)
  | txSeq
  | txEnd
  | rxByte (d : Byte)
  | rxReset
  | seqNext
  | statusRead
  | statusClear (mask : BitVec 3)
  deriving DecidableEq, Repr

end Sys2Proof
end

