-- ==== Sys2Proof/WellFormed.lean ====
section
/-! DEFINITION. What makes a command word well formed, said field by field as R47, R48 and R51 say it, beside the
mask and match of the decoder; and which operand numbers an assembler accepts (R54). -/

namespace Sys2Proof

/-- The four operand forms of R48. -/
inductive Form where
  | z   -- none
  | b   -- byte
  | h   -- half
  | m   -- mask
  deriving DecidableEq, Repr

/-- Field OP, `w[31:24]` (R47). -/
def opField (w : Word) : BitVec 8 := w.extractLsb' 24 8

/-- Field RSV, `w[23:16]` (R47). -/
def rsvField (w : Word) : BitVec 8 := w.extractLsb' 16 8

/-- Field OPD, `w[15:0]` (R47). -/
def opdField (w : Word) : BitVec 16 := w.extractLsb' 0 16

/-- The form of each assigned opcode, and nothing for an unassigned one (R49). -/
def formOfOp (op : BitVec 8) : Option Form :=
  match op with
  | 0x00#8 => some .z
  | 0x01#8 => some .z
  | 0x02#8 => some .b
  | 0x03#8 => some .z
  | 0x04#8 => some .h
  | 0x10#8 => some .z
  | 0x11#8 => some .b
  | 0x12#8 => some .z
  | 0x13#8 => some .z
  | 0x20#8 => some .b
  | 0x21#8 => some .z
  | 0x30#8 => some .z
  | 0x40#8 => some .z
  | 0x41#8 => some .m
  | _ => none

/-- The constraint a form puts on OPD (R48). -/
def Form.opdOk (f : Form) (opd : BitVec 16) : Bool :=
  match f with
  | .z => opd == 0#16
  | .b => opd.extractLsb' 8 8 == 0#8
  | .h => true
  | .m => opd.extractLsb' 3 13 == 0#13

/-- A word that is a command: its opcode is assigned, RSV is zero and OPD meets its form (R47, R48, R51). -/
def wordWellFormed (w : Word) : Bool :=
  match formOfOp (opField w) with
  | none => false
  | some f => rsvField w == 0#8 && f.opdOk (opdField w)

/-- Which operand an assembler accepts for a form: none for Z, a number that fits for B, H and M (R54). -/
def Form.accepts (f : Form) (v : Option Nat) : Bool :=
  match f, v with
  | .z, none => true
  | .z, some _ => false
  | .b, some n => decide (n < 2 ^ 8)
  | .h, some n => decide (n < 2 ^ 16)
  | .m, some n => decide (n < 2 ^ 3)
  | _, none => false

end Sys2Proof
end

