-- ==== Sys2Proof/Decode.lean ====
section
/-! DEFINITION. The decoder by mask and match (R49, R50), total on all 32-bit words, and the encoder. -/

namespace Sys2Proof

/-- Why a word decodes to no command: the three classes of R51. The names and their order are the model's
(DESIGN CHOICE, safe: log entry 12); R104 gives all three one effect. -/
inductive IllegalReason where
  | unassignedOpcode
  | reservedNotZero
  | operandBreaksForm
  deriving DecidableEq, Repr

/-- Operand D of form B: `w[7:0]` (R48). -/
def byteOperand (w : Word) : Byte := w.extractLsb' 0 8

/-- Operand K of form H: `w[15:0]` (R48). -/
def halfOperand (w : Word) : U16 := w.extractLsb' 0 16

/-- Operand MASK of form M: `w[2:0]` (R48). -/
def maskOperand (w : Word) : BitVec 3 := w.extractLsb' 0 3

/-- One row of R49: the match and mask of a command, and the command its operand bits make. -/
structure Row where
  pattern : Word
  mask : Word
  build : Word → Instr

/-- The rows of R49, in the table's order. -/
def decodeTable : List Row :=
  [ ⟨0x00000000#32, 0xFFFFFFFF#32, fun _ => .nop⟩,
    ⟨0x01000000#32, 0xFFFFFFFF#32, fun _ => .crcInit⟩,
    ⟨0x02000000#32, 0xFFFFFF00#32, fun w => .crcByte (byteOperand w)⟩,
    ⟨0x03000000#32, 0xFFFFFFFF#32, fun _ => .crcRead⟩,
    ⟨0x04000000#32, 0xFFFF0000#32, fun w => .crcVerify (halfOperand w)⟩,
    ⟨0x10000000#32, 0xFFFFFFFF#32, fun _ => .txStart⟩,
    ⟨0x11000000#32, 0xFFFFFF00#32, fun w => .txByte (byteOperand w)⟩,
    ⟨0x12000000#32, 0xFFFFFFFF#32, fun _ => .txSeq⟩,
    ⟨0x13000000#32, 0xFFFFFFFF#32, fun _ => .txEnd⟩,
    ⟨0x20000000#32, 0xFFFFFF00#32, fun w => .rxByte (byteOperand w)⟩,
    ⟨0x21000000#32, 0xFFFFFFFF#32, fun _ => .rxReset⟩,
    ⟨0x30000000#32, 0xFFFFFFFF#32, fun _ => .seqNext⟩,
    ⟨0x40000000#32, 0xFFFFFFFF#32, fun _ => .statusRead⟩,
    ⟨0x41000000#32, 0xFFFFFFF8#32, fun w => .statusClear (maskOperand w)⟩ ]

/-- The name of the class of R51 a word falls in, the first that applies. -/
def illegalReason (w : Word) : IllegalReason :=
  match formOfOp (opField w) with
  | none => .unassignedOpcode
  | some _ => if rsvField w = 0#8 then .operandBreaksForm else .reservedNotZero

/-- The command of the first row with `(w & mask) = match`, or ILLEGAL with its reason if no row matches (R50). -/
def decodeIn (w : Word) : List Row → Except IllegalReason Instr
  | [] => .error (illegalReason w)
  | r :: rows => if w &&& r.mask = r.pattern then .ok (r.build w) else decodeIn w rows

/-- `decode(w)` of R50. -/
def decode (w : Word) : Except IllegalReason Instr := decodeIn w decodeTable

/-- The OP of each command (R49). -/
def opcodeOf (i : Instr) : BitVec 8 :=
  match i with
  | .nop => 0x00#8
  | .crcInit => 0x01#8
  | .crcByte _ => 0x02#8
  | .crcRead => 0x03#8
  | .crcVerify _ => 0x04#8
  | .txStart => 0x10#8
  | .txByte _ => 0x11#8
  | .txSeq => 0x12#8
  | .txEnd => 0x13#8
  | .rxByte _ => 0x20#8
  | .rxReset => 0x21#8
  | .seqNext => 0x30#8
  | .statusRead => 0x40#8
  | .statusClear _ => 0x41#8

/-- The OPD of each command: its operand in the low bits, the rest zero (R48). -/
def operandOf (i : Instr) : BitVec 16 :=
  match i with
  | .nop => 0#16
  | .crcInit => 0#16
  | .crcByte d => d.setWidth 16
  | .crcRead => 0#16
  | .crcVerify k => k
  | .txStart => 0#16
  | .txByte d => d.setWidth 16
  | .txSeq => 0#16
  | .txEnd => 0#16
  | .rxByte d => d.setWidth 16
  | .rxReset => 0#16
  | .seqNext => 0#16
  | .statusRead => 0#16
  | .statusClear mask => mask.setWidth 16

/-- The word with fields OP, RSV = 0 and OPD (R47): `(OP << 24) | value` (R54). -/
def wordOf (op : BitVec 8) (opd : BitVec 16) : Word := (op.setWidth 32 <<< 24) ||| opd.setWidth 32

/-- The command word of a command (R47 to R49). -/
def encode (i : Instr) : Word := wordOf (opcodeOf i) (operandOf i)

/-- What the decoder reads from a word numbered as the opcode table numbers it: every command is one 32-bit word
(R47), and bits above `nbits` are zero. -/
def decodeTableWord (nbits w : Nat) : Option Instr :=
  match decode (BitVec.ofNat 32 (w % 2 ^ nbits)) with
  | .ok i => some i
  | .error _ => none

end Sys2Proof
end

