-- ==== Sys2Proof/Config.lean ====
section
/-! DEFINITION. The two parameters the spec leaves OPEN (R6): opaque constants, so that nothing can be proved of
their values. The fixed constants of R5 stand in Machine/Constants.lean. -/

namespace Sys2Proof.Config

/-- By how much RX_MAX_BODY exceeds its lower bound. No number is chosen. DESIGN CHOICE, safe: log entry 1. -/
opaque rxMaxBodyExtra : Nat

/-- RX_MAX_BODY of R6: the capacity in bytes of the receive message buffer, at least 4. -/
def rxMaxBody : Nat := rxMaxBodyExtra + 4

/-- PORT_BASE of R6 and R32: where a platform places the command port. No rule reads it.
DESIGN CHOICE, safe: log entry 2. -/
opaque portBase : Nat

end Sys2Proof.Config
end

