-- ==== Sys2Proof/Machine/Constants.lean ====
section
/-! DEFINITION. The block's fixed constants (R5), each named once, as 93 I9 recommends (UNVERIFIED literals: log
entry 9). -/

namespace Sys2Proof.Machine

/-- ESC: the escape byte. -/
def esc : Byte := 0x10#8

/-- START: the second byte of the head marker. -/
def startByte : Byte := 0x02#8

/-- END: the second byte of the tail marker. -/
def endByte : Byte := 0x03#8

/-- CRC_POLY_REFLECTED: 0x1021 bit-reversed. -/
def crcPoly : U16 := 0x8408#16

/-- CRC_INIT_VALUE. -/
def crcInitValue : U16 := 0xFFFF#16

/-- CRC_XOROUT: there is no final XOR. -/
def crcXorOut : U16 := 0x0000#16

/-- HEADER_LEN: the header bytes to, from, id, flag. -/
def headerLen : Nat := 4

/-- SEQ_MODULUS: the modulus of the link-frame-id counter. -/
def seqModulus : Nat := 256

/-- The head marker `[ESC, START]` (R14, R66). -/
def headMarker : List Byte := [esc, startByte]

/-- The tail marker `[ESC, END]` (R14, R66). -/
def tailMarker : List Byte := [esc, endByte]

end Sys2Proof.Machine
end

