-- ==== Sys2Proof/Machine/State.lean ====
section
/-! DEFINITION. The state as plain data: the record S of R15, the open capacity, and the two ends of the host
interface (what is yet to be issued, what has been observed). -/

namespace Sys2Proof.Machine

/-- The six states of the receive state machine (R22). -/
inductive RxState where
  | idle
  | waitStart
  | message
  | messageEscape
  | checksum1
  | checksum2
  deriving DecidableEq, Repr

/-- A delivered message (R87): to, from, id, rssi (an s8, here an integer from -128 to 127), payload. -/
structure Message where
  toAddr : Byte
  fromAddr : Byte
  frameId : Byte
  rssi : Int
  payload : List Byte
  deriving DecidableEq, Repr

/-- The three kinds of output event (R10). -/
inductive Event where
  | txByte (b : Byte)
  | deliver (m : Message)
  | result (v : U16)
  deriving DecidableEq, Repr

/-- What reaches the block from outside: a command word (R11) or the platform's reset (R120). -/
inductive Input where
  | command (w : Word)
  | reset
  deriving DecidableEq, Repr

/-- The machine. The first ten fields are the record S of R15; the last three are the model's own. -/
structure State where
  /-- `S.crc`, the host CRC accumulator (R18). -/
  crc : U16
  /-- `S.tx_active`, whether a transmit frame is open (R20). -/
  txActive : Bool
  /-- `S.tx_crc`, the transmit CRC accumulator (R19). -/
  txCrc : U16
  /-- `S.seq`, the link-frame-id counter (R21). -/
  seq : Byte
  /-- `S.rx_state` (R22). -/
  rxState : RxState
  /-- `S.rx_msg`, the message buffer (R23). -/
  rxMsg : List Byte
  /-- `S.rx_ck`, the checksum buffer (R24). -/
  rxCk : List Byte
  /-- `S.cmd_err`, sticky (R26). -/
  cmdErr : Bool
  /-- `S.rx_ovf`, sticky (R26). -/
  rxOvf : Bool
  /-- `S.rx_short`, sticky (R26). -/
  rxShort : Bool
  /-- RX_MAX_BODY (R6), the parameter every step is given; nothing writes it. DESIGN CHOICE, safe: log entry 1. -/
  rxMaxBody : Nat
  /-- What the host and the platform have yet to issue, the next one first (R17, R120). DESIGN CHOICE, safe: log
  entry 3. -/
  inputs : List Input
  /-- The observation so far, oldest event first (R11, R29). DEDUCED, safe: log entry 4. -/
  events : List Event
  deriving DecidableEq, Repr

/-- Reasons for a machine stop: there are none, since no command faults (R11). DEDUCED, safe: log entry 7. -/
inductive Fault where
  deriving DecidableEq, Repr

/-- Reasons for a refusal. -/
inductive Refusal where
  /-- An instruction without a meaning in this model, by its mnemonic. No arm raises it. Safe: it stops where the
  block goes on. -/
  | notModelled (mnemonic : String)
  deriving DecidableEq, Repr

/-- The outcome of a step or of one command. -/
abbrev StepOutcome := Host.Outcome State Fault Refusal

/-- S0 of R119 with the open capacity of R6, nothing issued and nothing observed. -/
def State.reset : State :=
  { crc := crcInitValue
    txActive := false
    txCrc := crcInitValue
    seq := 0#8
    rxState := .idle
    rxMsg := []
    rxCk := []
    cmdErr := false
    rxOvf := false
    rxShort := false
    rxMaxBody := Config.rxMaxBody
    inputs := []
    events := [] }

end Sys2Proof.Machine
end

