-- ==== Sys2Proof/Machine/Operands.lean ====
section
/-! DEFINITION. How operands and bytes are read as values: zero extension and sign (R8), the byte order of a checksum
(R34 to R36), the selectors of STATUS_CLEAR's mask (R103), the RSSI reading of the flag byte (R89). The operand bits
of a word are taken out in Decode.lean. -/

namespace Sys2Proof.Machine

/-- `zext_16` of a byte (R8). -/
def zext16 (b : Byte) : U16 := b.setWidth 16

/-- `zext_16` of one bit (R8). -/
def zextBit (b : Bool) : U16 := if b then 1#16 else 0#16

/-- `c[15:8]`, the checksum byte that comes first on the wire (R34). -/
def hiByte (c : U16) : Byte := c.extractLsb' 8 8

/-- `c[7:0]`, the checksum byte that comes second (R34). -/
def loByte (c : U16) : Byte := c.extractLsb' 0 8

/-- The checksum bytes of a value, most significant first (R34). -/
def checksumBytes (c : U16) : List Byte := [hiByte c, loByte c]

/-- The value `(k0 << 8) | k1` of two checksum bytes in wire order (R35). -/
def checksumValue (k0 k1 : Byte) : U16 := (zext16 k0 <<< 8) ||| zext16 k1

/-- `s8(b)`: the byte read as two's complement (R8, R89). -/
def s8 (b : Byte) : Int := if b.toNat < 128 then (b.toNat : Int) else (b.toNat : Int) - 256

/-- `MASK[0]`, which selects CMD_ERR (R103). -/
def maskCmdErr (mask : BitVec 3) : Bool := mask.getLsbD 0

/-- `MASK[1]`, which selects RX_OVF (R103). -/
def maskRxOvf (mask : BitVec 3) : Bool := mask.getLsbD 1

/-- `MASK[2]`, which selects RX_SHORT (R103). -/
def maskRxShort (mask : BitVec 3) : Bool := mask.getLsbD 2

end Sys2Proof.Machine
end

