-- ==== Sys2Proof/Machine/Codec.lean ====
section
/-! DEFINITION. The named byte functions of R12: the CRC (R57 to R59), byte-stuffing and frame packing (R68, R69),
unpacking (R88). -/

namespace Sys2Proof.Machine

/-- One iteration of the loop of R57. -/
def crcShift (c : U16) : U16 := if c.getLsbD 0 then (c >>> 1) ^^^ crcPoly else c >>> 1

/-- `n` iterations of the loop of R57. -/
def crcShifts : Nat → U16 → U16
  | 0, c => c
  | n + 1, c => crcShifts n (crcShift c)

/-- `crc_step(c, b)` (R57). The loop is from general knowledge, 93 GK1 (UNVERIFIED, unsafe: log entry 9). -/
def crcStep (c : U16) (b : Byte) : U16 := crcShifts 8 (c ^^^ zext16 b)

/-- Folding a byte list into a CRC register, in list order (R58). -/
def crcFold (c : U16) (xs : List Byte) : U16 := xs.foldl crcStep c

/-- `crc16(xs)` (R58). -/
def crc16 (xs : List Byte) : U16 := crcFold crcInitValue xs

/-- `compute(xs)`: the two checksum bytes, most significant first (R59). -/
def compute (xs : List Byte) : List Byte := checksumBytes (crc16 xs)

/-- `verify(xs, k)` (R59). -/
def verify (xs k : List Byte) : Bool := compute xs == k

/-- `stuff(xs)`: every ESC byte doubled (R68). -/
def stuff : List Byte → List Byte
  | [] => []
  | b :: xs => if b = esc then esc :: esc :: stuff xs else b :: stuff xs

/-- The body of a frame: header and payload, un-stuffed (R14, R66). -/
def frameBody (payload : List Byte) (toAddr fromAddr frameId flag : Byte) : List Byte :=
  [toAddr, fromAddr, frameId, flag] ++ payload

/-- The frame that carries a body: head, stuffed body, tail, checksum of body and tail (R66, R67). -/
def frameOf (body : List Byte) : List Byte :=
  headMarker ++ stuff body ++ tailMarker ++ compute (body ++ tailMarker)

/-- `pack(payload, to, from, id, flag)` (R69). -/
def pack (payload : List Byte) (toAddr fromAddr frameId flag : Byte) : List Byte :=
  frameOf (frameBody payload toAddr fromAddr frameId flag)

/-- `unpack(body)` (R88); no message for a body shorter than the header, where R88 does not define it (DESIGN CHOICE,
safe: log entry 10). -/
def unpack : List Byte → Option Message
  | toAddr :: fromAddr :: frameId :: flag :: payload => some ⟨toAddr, fromAddr, frameId, s8 flag, payload⟩
  | _ => none

end Sys2Proof.Machine
end

