-- ==== Sys2Proof/Machine/Flags.lean ====
section
/-! DEFINITION. The sticky bits and the STATUS word (R26 to R28). -/

namespace Sys2Proof.Machine

/-- `S.cmd_err <- 1`. -/
def setCmdErr (s : State) : State := { s with cmdErr := true }

/-- `S.rx_ovf <- 1`. -/
def setRxOvf (s : State) : State := { s with rxOvf := true }

/-- `S.rx_short <- 1`. -/
def setRxShort (s : State) : State := { s with rxShort := true }

/-- Write-1-to-clear of the sticky bits (R28, R103). -/
def clearSticky (mask : BitVec 3) (s : State) : State :=
  { s with
    cmdErr := if maskCmdErr mask then false else s.cmdErr
    rxOvf := if maskRxOvf mask then false else s.rxOvf
    rxShort := if maskRxShort mask then false else s.rxShort }

/-- The RX_STATE code of each receive state (R22). -/
def rxCode (r : RxState) : U16 :=
  match r with
  | .idle => 0#16
  | .waitStart => 1#16
  | .message => 2#16
  | .messageEscape => 3#16
  | .checksum1 => 4#16
  | .checksum2 => 5#16

/-- `STATUS(S)` of R27, assembled on read. -/
def statusWord (s : State) : U16 :=
  zextBit s.cmdErr ||| (zextBit s.rxOvf <<< 1) ||| (zextBit s.rxShort <<< 2) |||
    (rxCode s.rxState <<< 8) ||| (zextBit s.txActive <<< 11)

end Sys2Proof.Machine
end

