-- ==== Sys2Proof/Machine/Ops.lean ====
section
/-! DEFINITION. The named operations over the state: emitting events (R10), the illegal command (R104), reset (R120),
taking the next input, the transmit body byte (R72, R98), the counter (R95) and the receive buffers (R78, R79). -/

namespace Sys2Proof.Machine

/-- `emit`: one event at the end of the observation (R10, R42). -/
def emit (e : Event) (s : State) : State := { s with events := s.events ++ [e] }

/-- `emit TxByte(b)` for each byte of a list, in order (R10). -/
def emitTx (bs : List Byte) (s : State) : State := { s with events := s.events ++ bs.map Event.txByte }

/-- `emit Result(v)` (R10, R53). -/
def emitResult (v : U16) (s : State) : State := emit (.result v) s

/-- `emit Deliver(m)` (R10, R90). -/
def emitDeliver (m : Message) (s : State) : State := emit (.deliver m) s

/-- `raise IllegalCommand(w)`, the block's one exception: CMD_ERR is set, nothing else changes and nothing is emitted;
no trap is taken, so nothing is saved and there is no return (R104, R108, R111). -/
def illegalCommand (s : State) : State := setCmdErr s

/-- The platform's reset (R119 to R121): S at its reset values; the capacity, what is yet to be issued and the events
already emitted stay. DEDUCED, safe: log entry 5. -/
def hardReset (s : State) : State :=
  { State.reset with rxMaxBody := s.rxMaxBody, inputs := s.inputs, events := s.events }

/-- The next input and the state without it, if anything has been issued (R17). -/
def takeInput (s : State) : Option (Input × State) :=
  match s.inputs with
  | [] => none
  | x :: rest => some (x, { s with inputs := rest })

/-- `next()` of the link-frame counter (R95): the count before the increment, and the state after it. -/
def seqTake (s : State) : Byte × State :=
  (s.seq, { s with seq := BitVec.ofNat 8 ((s.seq.toNat + 1) % seqModulus) })

/-- One body byte of an open frame: sent, doubled if it is ESC, and folded un-stuffed into the checksum once
(R72, and R98 after its check). -/
def txBodyByte (d : Byte) (s : State) : State :=
  let s1 := emitTx (if d = esc then [d, esc] else [d]) s
  { s1 with txCrc := crcStep s.txCrc d }

/-- `to_idle()` (R78). -/
def toIdle (s : State) : State := { s with rxState := .idle, rxMsg := [], rxCk := [] }

/-- `append(b)` (R79): the state after it, and whether it answered OK (true) or ABORTED (false). -/
def rxAppend (b : Byte) (s : State) : Bool × State :=
  if s.rxMsg.length = s.rxMaxBody then (false, toIdle (setRxOvf s))
  else (true, { s with rxMsg := s.rxMsg ++ [b] })

/-- The transmit byte channel of an observation (R10). -/
def txBytes (es : List Event) : List Byte :=
  es.filterMap fun e => match e with
    | .txByte b => some b
    | .deliver _ => none
    | .result _ => none

/-- The delivery channel of an observation (R10). -/
def deliveries (es : List Event) : List Message :=
  es.filterMap fun e => match e with
    | .txByte _ => none
    | .deliver m => some m
    | .result _ => none

/-- The result channel of an observation (R10). -/
def results (es : List Event) : List U16 :=
  es.filterMap fun e => match e with
    | .txByte _ => none
    | .deliver _ => none
    | .result v => some v

end Sys2Proof.Machine
end

