-- ==== Sys2Proof/Machine/CrcFamily.lean ====
section
/-! DEFINITION. The host CRC commands (40_checksum, R62 to R65). -/

namespace Sys2Proof.Machine

/-- CRC_INIT (R62). -/
def execCrcInit (s : State) : StepOutcome := .next { s with crc := crcInitValue }

/-- CRC_BYTE D (R63). -/
def execCrcByte (d : Byte) (s : State) : StepOutcome := .next { s with crc := crcStep s.crc d }

/-- CRC_READ (R64). -/
def execCrcRead (s : State) : StepOutcome := .next (emitResult s.crc s)

/-- CRC_VERIFY K (R65). -/
def execCrcVerify (k : U16) (s : State) : StepOutcome :=
  .next (emitResult (if s.crc = k then 0x0001#16 else 0x0000#16) s)

end Sys2Proof.Machine
end

