-- ==== Sys2Proof/Machine/CtlFamily.lean ====
section
/-! DEFINITION. Control and status (44_control, R101 to R103). -/

namespace Sys2Proof.Machine

/-- NOP (R101). -/
def execNop (s : State) : StepOutcome := .next s

/-- STATUS_READ (R102): reading clears nothing. -/
def execStatusRead (s : State) : StepOutcome := .next (emitResult (statusWord s) s)

/-- STATUS_CLEAR MASK (R103). -/
def execStatusClear (mask : BitVec 3) (s : State) : StepOutcome := .next (clearSticky mask s)

end Sys2Proof.Machine
end

