-- ==== Sys2Proof/Machine/RxFamily.lean ====
section
/-! DEFINITION. The receive state machine (42_receive_fsm): one definition per state rule (R81 to R86), RX_BYTE (R80)
and RX_RESET (R92). -/

namespace Sys2Proof.Machine

/-- State IDLE (R81). -/
def rxIdle (d : Byte) (s : State) : State :=
  if d = esc then { s with rxState := .waitStart } else s

/-- State WAIT_START (R82). -/
def rxWaitStart (d : Byte) (s : State) : State :=
  if d = startByte then { s with rxMsg := [], rxState := .message } else toIdle s

/-- State MESSAGE (R83). -/
def rxMessage (d : Byte) (s : State) : State :=
  if d = esc then { s with rxState := .messageEscape } else (rxAppend d s).2

/-- State MESSAGE_ESCAPE (R84). -/
def rxMessageEscape (d : Byte) (s : State) : State :=
  if d = esc then
    (if (rxAppend esc s).1 then { (rxAppend esc s).2 with rxState := .message } else (rxAppend esc s).2)
  else if d = endByte then { s with rxCk := [], rxState := .checksum1 }
  else toIdle s

/-- State CHECKSUM_1 (R85). -/
def rxChecksum1 (d : Byte) (s : State) : State :=
  { s with rxCk := s.rxCk ++ [d], rxState := .checksum2 }

/-- State CHECKSUM_2 (R86): the frame completes; a verified body of at least four bytes is delivered, a shorter one
sets RX_SHORT, a mismatch is silent (R106). -/
def rxChecksum2 (d : Byte) (s : State) : State :=
  if verify (s.rxMsg ++ tailMarker) (s.rxCk ++ [d]) then
    match unpack s.rxMsg with
    | some m => toIdle (emitDeliver m s)
    | none => toIdle (setRxShort s)
  else toIdle s

/-- The case of R80 that `S.rx_state` selects. -/
def rxAdvance (d : Byte) (s : State) : State :=
  match s.rxState with
  | .idle => rxIdle d s
  | .waitStart => rxWaitStart d s
  | .message => rxMessage d s
  | .messageEscape => rxMessageEscape d s
  | .checksum1 => rxChecksum1 d s
  | .checksum2 => rxChecksum2 d s

/-- RX_BYTE D (R80). -/
def execRxByte (d : Byte) (s : State) : StepOutcome := .next (rxAdvance d s)

/-- RX_RESET (R92). -/
def execRxReset (s : State) : StepOutcome := .next (toIdle s)

end Sys2Proof.Machine
end

