-- ==== Sys2Proof/Machine/SeqFamily.lean ====
section
/-! DEFINITION. The sequencer's own command (43_sequencer, R97); TX_SEQ stands with the transmit commands. -/

namespace Sys2Proof.Machine

/-- SEQ_NEXT (R97). -/
def execSeqNext (s : State) : StepOutcome := .next (emitResult (zext16 (seqTake s).1) (seqTake s).2)

end Sys2Proof.Machine
end

