-- ==== Sys2Proof/Machine/TxFamily.lean ====
section
/-! DEFINITION. The transmit commands (41_frame_tx, R71 to R74; 43_sequencer, R98). -/

namespace Sys2Proof.Machine

/-- TX_START (R71): illegal while a frame is open (R74). -/
def execTxStart (s : State) : StepOutcome :=
  if s.txActive then .next (illegalCommand s)
  else .next { emitTx headMarker s with txCrc := crcInitValue, txActive := true }

/-- TX_BYTE D (R72): illegal while no frame is open (R74). -/
def execTxByte (d : Byte) (s : State) : StepOutcome :=
  if s.txActive then .next (txBodyByte d s) else .next (illegalCommand s)

/-- TX_SEQ (R98): illegal while no frame is open (R74); the counter moves only after that check. -/
def execTxSeq (s : State) : StepOutcome :=
  if s.txActive then .next (txBodyByte (seqTake s).1 (seqTake s).2) else .next (illegalCommand s)

/-- TX_END (R73): illegal while no frame is open (R74). The checksum bytes are sent raw. -/
def execTxEnd (s : State) : StepOutcome :=
  if s.txActive then
    let c := crcFold s.txCrc tailMarker
    .next { emitTx (tailMarker ++ checksumBytes c) s with txCrc := c, txActive := false }
  else .next (illegalCommand s)

end Sys2Proof.Machine
end

