-- ==== Sys2Proof/Machine/Dispatch.lean ====
section
/-! DEFINITION. One arm per command of the opcode table. -/

namespace Sys2Proof.Machine

def exec (i : Instr) (s : State) : Host.Outcome State Fault Refusal :=
  match i with
  | .nop => Sys2Proof.Machine.execNop s
  | .crcInit => Sys2Proof.Machine.execCrcInit s
  | .crcByte d => Sys2Proof.Machine.execCrcByte d s
  | .crcRead => Sys2Proof.Machine.execCrcRead s
  | .crcVerify k => Sys2Proof.Machine.execCrcVerify k s
  | .txStart => Sys2Proof.Machine.execTxStart s
  | .txByte d => Sys2Proof.Machine.execTxByte d s
  | .txSeq => Sys2Proof.Machine.execTxSeq s
  | .txEnd => Sys2Proof.Machine.execTxEnd s
  | .rxByte d => Sys2Proof.Machine.execRxByte d s
  | .rxReset => Sys2Proof.Machine.execRxReset s
  | .seqNext => Sys2Proof.Machine.execSeqNext s
  | .statusRead => Sys2Proof.Machine.execStatusRead s
  | .statusClear mask => Sys2Proof.Machine.execStatusClear mask s

end Sys2Proof.Machine
end

