-- ==== Sys2Proof/Machine/Step.lean ====
section
/-! DEFINITION. One step (R11): the next input is taken; a command word is decoded and executed, an ILLEGAL word is an
illegal command (R50, R104), a reset is a reset (R120); with nothing issued the state persists (R118). -/

namespace Sys2Proof.Machine

/-- The effect of one command word (R11). -/
def stepWord (w : Word) (s : State) : Host.Outcome State Fault Refusal :=
  match decode w with
  | .ok i => exec i s
  | .error _ => .next (illegalCommand s)

/-- One step of the machine. -/
def step (s : State) : Host.Outcome State Fault Refusal :=
  match takeInput s with
  | none => .next s
  | some (.command w, s1) => stepWord w s1
  | some (.reset, s1) => .next (hardReset s1)

/-- The state in which the host's next command is the word numbered as the opcode table numbers it (log entry 3). -/
def State.withFetchWord (s : State) (nbits w : Nat) : State :=
  { s with inputs := .command (BitVec.ofNat 32 (w % 2 ^ nbits)) :: s.inputs }

end Sys2Proof.Machine
end

