-- ==== Sys2Proof/Machine/Assembler.lean ====
section
/-! DEFINITION. Assembler lines (R54) and pseudo-instructions (R55). Text details that R54 leaves open are fixed as
log entry 11 says (DESIGN CHOICE, safe). -/

namespace Sys2Proof.Machine

/-- The pseudo-instructions of R55. -/
inductive Pseudo where
  | crcBlock (xs : List Byte)
  | crcOf (xs : List Byte)
  | crcCheck (xs : List Byte) (k : U16)
  | txFrame (payload : List Byte) (toAddr fromAddr frameId flag : Byte)
  | txFrameSeq (payload : List Byte) (toAddr fromAddr flag : Byte)
  | rxFeed (xs : List Byte)
  | statusClearAll
  deriving DecidableEq, Repr

/-- The expansion of `CRC_BLOCK xs` (R55). -/
def crcBlock (xs : List Byte) : List Instr := .crcInit :: xs.map .crcByte

/-- The expansion of a pseudo-instruction (R55). -/
def Pseudo.expand (p : Pseudo) : List Instr :=
  match p with
  | .crcBlock xs => Sys2Proof.Machine.crcBlock xs
  | .crcOf xs => Sys2Proof.Machine.crcBlock xs ++ [.crcRead]
  | .crcCheck xs k => Sys2Proof.Machine.crcBlock xs ++ [.crcVerify k]
  | .txFrame payload toAddr fromAddr frameId flag =>
    [.txStart, .txByte toAddr, .txByte fromAddr, .txByte frameId, .txByte flag] ++ payload.map .txByte ++ [.txEnd]
  | .txFrameSeq payload toAddr fromAddr flag =>
    [.txStart, .txByte toAddr, .txByte fromAddr, .txSeq, .txByte flag] ++ payload.map .txByte ++ [.txEnd]
  | .rxFeed xs => xs.map .rxByte
  | .statusClearAll => [.statusClear 7#3]

/-- Why an assembler rejects a line. -/
inductive AsmError where
  | unknownMnemonic
  | badOperand
  deriving DecidableEq, Repr

/-- The mnemonics of R49 with their opcodes. -/
def mnemonicTable : List (String × BitVec 8) :=
  [ ("NOP", 0x00#8),
    ("CRC_INIT", 0x01#8),
    ("CRC_BYTE", 0x02#8),
    ("CRC_READ", 0x03#8),
    ("CRC_VERIFY", 0x04#8),
    ("TX_START", 0x10#8),
    ("TX_BYTE", 0x11#8),
    ("TX_SEQ", 0x12#8),
    ("TX_END", 0x13#8),
    ("RX_BYTE", 0x20#8),
    ("RX_RESET", 0x21#8),
    ("SEQ_NEXT", 0x30#8),
    ("STATUS_READ", 0x40#8),
    ("STATUS_CLEAR", 0x41#8) ]

/-- A decimal digit. -/
def decDigit (c : Char) : Option Nat :=
  if 48 ≤ c.toNat ∧ c.toNat ≤ 57 then some (c.toNat - 48) else none

/-- A hexadecimal digit, of either case. -/
def hexDigit (c : Char) : Option Nat :=
  if 48 ≤ c.toNat ∧ c.toNat ≤ 57 then some (c.toNat - 48)
  else if 65 ≤ c.toNat ∧ c.toNat ≤ 70 then some (c.toNat - 55)
  else if 97 ≤ c.toNat ∧ c.toNat ≤ 102 then some (c.toNat - 87)
  else none

/-- The number a non-empty list of digits stands for in a base. -/
def parseDigits (base : Nat) (digit : Char → Option Nat) (cs : List Char) : Option Nat :=
  match cs with
  | [] => none
  | _ :: _ => cs.foldl (fun acc c => acc.bind fun n => (digit c).map fun d => n * base + d) (some 0)

/-- A number, `0x41` or `65` (R54). -/
def parseNumber (cs : List Char) : Option Nat :=
  match cs with
  | '0' :: 'x' :: ds => parseDigits 16 hexDigit ds
  | ds => parseDigits 10 decDigit ds

/-- A blank or a tab. -/
def isBlank (c : Char) : Bool := c == ' ' || c == '\t'

/-- A list of characters without the blanks at its two ends. -/
def trim (cs : List Char) : List Char :=
  ((cs.dropWhile isBlank).reverse.dropWhile isBlank).reverse

/-- A flag name of STATUS_CLEAR (R54). -/
def flagValue (cs : List Char) : Option Nat :=
  if cs = "CMD_ERR".toList then some 1
  else if cs = "RX_OVF".toList then some 2
  else if cs = "RX_SHORT".toList then some 4
  else none

/-- The pieces between the `|` signs of an operand. -/
def splitBars : List Char → List (List Char)
  | [] => [[]]
  | c :: cs =>
    match splitBars cs with
    | [] => [[c]]
    | w :: ws => if c = '|' then [] :: w :: ws else (c :: w) :: ws

/-- Flag names joined by `|` (R54). -/
def parseFlags (cs : List Char) : Option Nat :=
  (splitBars cs).foldl (fun acc w => acc.bind fun n => (flagValue (trim w)).map fun v => n ||| v) (some 0)

/-- The operand number of a form's text: nothing for form Z; a number; for B also a character literal; for M also flag
names (R54). -/
def parseOperand (f : Form) (cs : List Char) : Option Nat :=
  match f with
  | .z => none
  | .b =>
    match cs with
    | ['\'', c, '\''] => if c.toNat < 128 then some c.toNat else none
    | _ => parseNumber cs
  | .h => parseNumber cs
  | .m => (parseNumber cs).or (parseFlags cs)

/-- The line without its comment (R54). -/
def stripComment : List Char → List Char
  | [] => []
  | '\'' :: c :: '\'' :: cs => '\'' :: c :: '\'' :: stripComment cs
  | c :: cs => if c = ';' then [] else c :: stripComment cs

/-- `(OP << 24) | value` (R54). -/
def asmWord (op : BitVec 8) (value : Nat) : Word := (op.setWidth 32 <<< 24) ||| BitVec.ofNat 32 value

/-- The word of a mnemonic and its operand's text; an operand that does not fit the form is rejected (R54). -/
def assembleCommand (name operand : List Char) : Except AsmError Word :=
  match mnemonicTable.find? (fun row => row.1.toList == name) with
  | none => .error .unknownMnemonic
  | some (_, op) =>
    match formOfOp op with
    | none => .error .unknownMnemonic
    | some f =>
      if operand = [] then
        (if f.accepts none then .ok (asmWord op 0) else .error .badOperand)
      else
        match parseOperand f operand with
        | none => .error .badOperand
        | some v => if f.accepts (some v) then .ok (asmWord op v) else .error .badOperand

/-- One line: nothing for a blank or comment line, else its command word, or why it is rejected (R54). -/
def assembleLine (line : List Char) : Except AsmError (Option Word) :=
  let text := trim (stripComment line)
  if text = [] then .ok none
  else
    match assembleCommand (text.takeWhile fun c => !isBlank c) (trim (text.dropWhile fun c => !isBlank c)) with
    | .ok w => .ok (some w)
    | .error e => .error e

end Sys2Proof.Machine
end

