-- ==== Sys2Proof/Safety.lean ====
section
/-! DEFINITION. The terms claims use: the invariant of R15 and R25, sequences of commands, what a command reads and
writes, which commands belong to the transmit framer, and how an assembler line writes a number. -/

namespace Sys2Proof.Machine

/-- The invariant: the capacity bound of R6, the lengths of R15, R23 and R24, and the three clauses of R25. -/
abbrev State.Inv (s : State) : Prop :=
  headerLen ≤ s.rxMaxBody ∧
  s.rxMsg.length ≤ s.rxMaxBody ∧
  s.rxCk.length ≤ 2 ∧
  (s.rxState = .idle ∨ s.rxState = .waitStart → s.rxMsg = [] ∧ s.rxCk = []) ∧
  (s.rxState = .message ∨ s.rxState = .messageEscape ∨ s.rxState = .checksum1 → s.rxCk = []) ∧
  (s.rxState = .checksum2 → s.rxCk.length = 1)

/-- Commands executed one after another, each complete before the next begins (R42). -/
def execAll : List Instr → State → StepOutcome
  | [], s => .next s
  | i :: is, s =>
    match exec i s with
    | .next t => execAll is t
    | .fault r => .fault r
    | .refused r => .refused r

/-- `n` steps of the machine (a run, R11), stopping where a step stops. -/
def runSteps : Nat → State → StepOutcome
  | 0, s => .next s
  | n + 1, s =>
    match step s with
    | .next t => runSteps n t
    | .fault r => .fault r
    | .refused r => .refused r

/-- A safe outcome: a next state, neither a fault nor a refusal (R11). -/
def Safe (o : StepOutcome) : Prop := ∃ t, o = .next t

/-- The commands of the transmit framer (R71 to R73, R98). -/
def isTxCommand (i : Instr) : Bool :=
  match i with
  | .nop => false
  | .crcInit => false
  | .crcByte _ => false
  | .crcRead => false
  | .crcVerify _ => false
  | .txStart => true
  | .txByte _ => true
  | .txSeq => true
  | .txEnd => true
  | .rxByte _ => false
  | .rxReset => false
  | .seqNext => false
  | .statusRead => false
  | .statusClear _ => false

/-- The commands of the receive side (R80, R92). -/
def isRxCommand (i : Instr) : Bool :=
  match i with
  | .nop => false
  | .crcInit => false
  | .crcByte _ => false
  | .crcRead => false
  | .crcVerify _ => false
  | .txStart => false
  | .txByte _ => false
  | .txSeq => false
  | .txEnd => false
  | .rxByte _ => true
  | .rxReset => true
  | .seqNext => false
  | .statusRead => false
  | .statusClear _ => false

/-- Reading a byte list left to right and pairing ESC bytes off, none is left over (R70). -/
def escPaired : List Byte → Bool
  | [] => true
  | [b] => b != esc
  | b :: c :: xs => if b = esc then c == esc && escPaired xs else escPaired (c :: xs)
termination_by structural xs => xs

/-- The decimal digit of a value. -/
def decChar (d : Fin 10) : Char := ['0', '1', '2', '3', '4', '5', '6', '7', '8', '9'].getD d.val ' '

/-- The hexadecimal digit of a value, in the chosen case (either case: log entry 11). -/
def hexChar (d : Fin 16) (upper : Bool) : Char :=
  (if upper then ['0', '1', '2', '3', '4', '5', '6', '7', '8', '9', 'A', 'B', 'C', 'D', 'E', 'F']
   else ['0', '1', '2', '3', '4', '5', '6', '7', '8', '9', 'a', 'b', 'c', 'd', 'e', 'f']).getD d.val ' '

/-- A text that writes a number as R54 does: decimal digits, or `0x` and hexadecimal digits, most significant first. -/
def NumberText (cs : List Char) (v : Nat) : Prop :=
  (∃ ds : List (Fin 10), ds ≠ [] ∧ cs = ds.map decChar ∧ v = ds.foldl (fun n d => 10 * n + d.val) 0) ∨
  (∃ ds : List (Fin 16 × Bool), ds ≠ [] ∧ cs = '0' :: 'x' :: ds.map (fun d => hexChar d.1 d.2) ∧
    v = ds.foldl (fun n d => 16 * n + d.1.val) 0)

end Sys2Proof.Machine
end

