-- ==== Sys2Proof/Certificates/Slice0/Obligations.lean ====
section
/-! DEFINITION. Statements for the provers, from the numbered rules of the spec. -/

open Sys2Proof Sys2Proof.Machine

/-- R47 to R50: the fields, the forms and the table, read in both directions. -/
def Obligations.DecodeEncode : Prop :=
  ∀ i : Instr, decode (encode i) = .ok i

/-- R47, R48, R50: no second word means the same command, and a word that decodes has RSV zero and an OPD of its form. -/
def Obligations.LegalWordsAreEncodings : Prop :=
  ∀ (w : Word) (i : Instr), decode w = .ok i → encode i = w ∧ wordWellFormed w = true

/-- R50, whole: unique row, ILLEGAL otherwise, totality, and why rows do not overlap. -/
def Obligations.DecodeByMatchingRow : Prop :=
  ∀ w : Word,
  (∀ r ∈ decodeTable, w &&& r.mask = r.pattern → decode w = .ok (r.build w)) ∧
  ((∀ r ∈ decodeTable, w &&& r.mask ≠ r.pattern) →
    (∃ e, decode w = .error e) ∧ ∀ s, stepWord w s = .next { s with cmdErr := true }) ∧
  (∀ r ∈ decodeTable, ∀ r' ∈ decodeTable, w &&& r.mask = r.pattern → w &&& r'.mask = r'.pattern →
    r.pattern = r'.pattern ∧ r.mask = r'.mask) ∧
  (∀ r ∈ decodeTable, r.mask &&& 0xFFFF0000#32 = 0xFFFF0000#32) ∧
  (decodeTable.map fun r => r.pattern.extractLsb' 24 8).Nodup

/-- R51, whole: the three classes, each executing as R104, none as a no-op. -/
def Obligations.IllegalWordsExactly : Prop :=
  ∀ w : Word,
  ((∃ e, decode w = .error e) ↔
    ((5 ≤ (w.extractLsb' 24 8).toNat ∧ (w.extractLsb' 24 8).toNat ≤ 15) ∨
     (20 ≤ (w.extractLsb' 24 8).toNat ∧ (w.extractLsb' 24 8).toNat ≤ 31) ∨
     (34 ≤ (w.extractLsb' 24 8).toNat ∧ (w.extractLsb' 24 8).toNat ≤ 47) ∨
     (49 ≤ (w.extractLsb' 24 8).toNat ∧ (w.extractLsb' 24 8).toNat ≤ 63) ∨
     (66 ≤ (w.extractLsb' 24 8).toNat ∧ (w.extractLsb' 24 8).toNat ≤ 255)) ∨
    w.extractLsb' 16 8 ≠ 0#8 ∨
    (w.extractLsb' 24 8 ∈ [0x00#8, 0x01#8, 0x03#8, 0x10#8, 0x12#8, 0x13#8, 0x21#8, 0x30#8, 0x40#8] ∧
      w.extractLsb' 0 16 ≠ 0#16) ∨
    (w.extractLsb' 24 8 ∈ [0x02#8, 0x11#8, 0x20#8] ∧ w.extractLsb' 8 8 ≠ 0#8) ∨
    (w.extractLsb' 24 8 = 0x41#8 ∧ w.extractLsb' 3 13 ≠ 0#13)) ∧
  (∀ e s, decode w = .error e → stepWord w s = .next { s with cmdErr := true }) ∧
  (∀ e s, decode w = .error e → s.cmdErr = false → stepWord w s ≠ .next s)

/-- R49 and the words of 95 P1, P2, P5: a sanity statement. The names of the reasons are the model's choice (log entry 12). -/
def Obligations.DecodeSampleWords : Prop :=
  decode 0x02000041#32 = .ok (.crcByte 0x41#8) ∧ decode 0x04006F91#32 = .ok (.crcVerify 0x6F91#16) ∧
  decode 0x11000055#32 = .ok (.txByte 0x55#8) ∧ decode 0x200000CA#32 = .ok (.rxByte 0xCA#8) ∧
  decode 0x30000000#32 = .ok .seqNext ∧ decode 0x41000001#32 = .ok (.statusClear 1#3) ∧
  decode 0x05000000#32 = .error .unassignedOpcode ∧ decode 0x00010000#32 = .error .reservedNotZero ∧
  decode 0x02000100#32 = .error .operandBreaksForm

/-- R11 with R50. That inputs wait in a list is the model's choice (log entry 3). -/
def Obligations.StepRunsDecodedCommand : Prop :=
  ∀ (s : State) (w : Word) (rest : List Input) (i : Instr), s.inputs = .command w :: rest → decode w = .ok i →
  step s = exec i { s with inputs := rest }

/-- R118: the block acts only when a command arrives. That inputs wait in a list is the model's choice (log entry 3). -/
def Obligations.StepWithoutInput : Prop :=
  ∀ s : State, s.inputs = [] → step s = .next s

/-- R11: the step is total, and no command faults, blocks or refuses. -/
def Obligations.StepAlwaysNext : Prop :=
  (∀ s : State, Safe (step s)) ∧ (∀ (i : Instr) (s : State), Safe (exec i s))

/-- R25 (which the spec marks as derived) with the bounds of R6, R15, R23, R24, from every state that meets it. -/
def Obligations.StepKeepsInvariant : Prop :=
  ∀ s t : State, s.Inv → step s = .next t → t.Inv

/-- R25 at R119's values. That reset takes the capacity from the opaque Config.rxMaxBody is the model's choice (log entry 1). -/
def Obligations.ResetMeetsInvariant : Prop :=
  State.reset.Inv

/-- R119, whole. -/
def Obligations.ResetValues : Prop :=
  (∀ (s : State) (rest : List Input), s.inputs = .reset :: rest →
    ∃ t, step s = .next t ∧ t.crc = 0xFFFF#16 ∧ t.txActive = false ∧ t.txCrc = 0xFFFF#16 ∧ t.seq = 0#8 ∧
      t.rxState = .idle ∧ t.rxMsg = [] ∧ t.rxCk = [] ∧ t.cmdErr = false ∧ t.rxOvf = false ∧ t.rxShort = false ∧
      t.events = s.events) ∧
  State.reset.crc = 0xFFFF#16 ∧ State.reset.txActive = false ∧ State.reset.txCrc = 0xFFFF#16 ∧
  State.reset.seq = 0#8 ∧ State.reset.rxState = .idle ∧ State.reset.rxMsg = [] ∧ State.reset.rxCk = [] ∧
  State.reset.cmdErr = false ∧ State.reset.rxOvf = false ∧ State.reset.rxShort = false

/-- R120 and R121. That reset keeps the capacity and the pending inputs is the model's reading (log entry 5). -/
def Obligations.ResetForgetsTheRun : Prop :=
  ∀ (s s' : State) (rest : List Input), s.inputs = .reset :: rest → s'.inputs = .reset :: rest →
  s.rxMaxBody = s'.rxMaxBody → s.events = s'.events → step s = step s'

/-- R29 and R42. The list of inputs and the observation in State are the model's choice (log entries 1, 3, 4). -/
def Obligations.StepFrame : Prop :=
  ∀ s t : State, step s = .next t →
  t.rxMaxBody = s.rxMaxBody ∧ t.inputs = s.inputs.tail ∧ s.events <+: t.events

/-- R11 and R42: a run is a sequence of steps, each complete before the next begins. The list of inputs is the model's choice (log entry 3). -/
def Obligations.RunIsCommandSequence : Prop :=
  ∀ (cs : List Instr) (rest : List Input) (s : State),
  s.inputs = (cs.map fun i => Input.command (encode i)) ++ rest →
  runSteps cs.length s = execAll cs { s with inputs := rest }

/-- R104 and R74, whole: the three out-of-sequence cases, and no counter advance or restart, by the equality of states. -/
def Obligations.IllegalCommandEffect : Prop :=
  (∀ (w : Word) (e : IllegalReason) (s : State), decode w = .error e →
    stepWord w s = .next { s with cmdErr := true }) ∧
  (∀ s : State, s.txActive = true → exec .txStart s = .next { s with cmdErr := true }) ∧
  (∀ (i : Instr) (s : State), s.txActive = false → (i = .txSeq ∨ i = .txEnd ∨ ∃ d, i = .txByte d) →
    exec i s = .next { s with cmdErr := true }) ∧
  (∀ (w : Word) (e : IllegalReason) (i : Instr) (rest : List Input) (s : State), decode w = .error e →
    s.inputs = .command w :: .command (encode i) :: rest →
    ∃ t, step s = .next t ∧ step t = exec i { s with cmdErr := true, inputs := rest })

/-- R110, which the spec derives from the order of checks. -/
def Obligations.AtMostOneStickyBit : Prop :=
  ∀ s t : State, step s = .next t →
  ¬ (s.cmdErr = false ∧ t.cmdErr = true ∧ s.rxOvf = false ∧ t.rxOvf = true) ∧
  ¬ (s.cmdErr = false ∧ t.cmdErr = true ∧ s.rxShort = false ∧ t.rxShort = true) ∧
  ¬ (s.rxOvf = false ∧ t.rxOvf = true ∧ s.rxShort = false ∧ t.rxShort = true)

/-- R28, whole. -/
def Obligations.StickyBitsChangeTwoWays : Prop :=
  (∀ (i : Instr) (s t : State), exec i s = .next t →
    (s.cmdErr = true → t.cmdErr = true ∨ ∃ m : BitVec 3, i = .statusClear m ∧ m.getLsbD 0 = true) ∧
    (s.rxOvf = true → t.rxOvf = true ∨ ∃ m : BitVec 3, i = .statusClear m ∧ m.getLsbD 1 = true) ∧
    (s.rxShort = true → t.rxShort = true ∨ ∃ m : BitVec 3, i = .statusClear m ∧ m.getLsbD 2 = true) ∧
    (s.cmdErr = false → t.cmdErr = true →
      (i = .txStart ∧ s.txActive = true) ∨
      ((i = .txSeq ∨ i = .txEnd ∨ ∃ d, i = .txByte d) ∧ s.txActive = false)) ∧
    (s.rxOvf = false → t.rxOvf = true →
      ∃ d, i = .rxByte d ∧ s.rxMsg.length = s.rxMaxBody ∧
        (s.rxState = .message ∧ d ≠ 0x10#8 ∨ s.rxState = .messageEscape ∧ d = 0x10#8)) ∧
    (s.rxShort = false → t.rxShort = true →
      ∃ d, i = .rxByte d ∧ s.rxState = .checksum2 ∧ s.rxMsg.length < 4 ∧
        compute (s.rxMsg ++ [0x10#8, 0x03#8]) = s.rxCk ++ [d])) ∧
  (∀ (w : Word) (e : IllegalReason) (s t : State), decode w = .error e → stepWord w s = .next t →
    t.cmdErr = true ∧ t.rxOvf = s.rxOvf ∧ t.rxShort = s.rxShort) ∧
  (∀ s : State, statusWord s &&& 0xF0F8#16 = 0#16) ∧
  (∀ (m : BitVec 3) (s t : State), exec (.statusClear m) s = .next t →
    (statusWord t).extractLsb' 3 13 = (statusWord s).extractLsb' 3 13)

/-- R26: the only flags are the sticky bits; only STATUS_READ reads them. CRC_VERIFY, among the commands covered, answers by its result. -/
def Obligations.StickyBitsChangeNoBehaviour : Prop :=
  (∀ (i : Instr) (s : State) (a b c : Bool), i ≠ .statusRead →
    ∃ t t', exec i s = .next t ∧ exec i { s with cmdErr := a, rxOvf := b, rxShort := c } = .next t' ∧
      t' = { t with cmdErr := t'.cmdErr, rxOvf := t'.rxOvf, rxShort := t'.rxShort }) ∧
  (∀ s : State, ∃ v : U16, exec .statusRead s = .next { s with events := s.events ++ [.result v] })

/-- R27, whole, bit by bit, with the codes of R22 written out. -/
def Obligations.StatusBits : Prop :=
  (∀ s : State,
    (statusWord s).getLsbD 0 = s.cmdErr ∧ (statusWord s).getLsbD 1 = s.rxOvf ∧
    (statusWord s).getLsbD 2 = s.rxShort ∧ (statusWord s).extractLsb' 3 5 = 0#5 ∧
    (statusWord s).extractLsb' 8 3 =
      (match s.rxState with
        | .idle => 0#3
        | .waitStart => 1#3
        | .message => 2#3
        | .messageEscape => 3#3
        | .checksum1 => 4#3
        | .checksum2 => 5#3) ∧
    (statusWord s).getLsbD 11 = s.txActive ∧ (statusWord s).extractLsb' 12 4 = 0#4) ∧
  statusWord State.reset = 0#16

/-- R101, whole. -/
def Obligations.NopCommand : Prop :=
  (∀ s : State, exec .nop s = .next s) ∧
  decode 0x00000000#32 = .ok .nop ∧
  (∀ (w : Word) (s : State), w.extractLsb' 24 8 = 0x00#8 → w ≠ 0x00000000#32 →
    stepWord w s = .next { s with cmdErr := true })

/-- R62, whole; a frame in progress is untouched by the equality of states. -/
def Obligations.CrcInitCommand : Prop :=
  (∀ s : State, exec .crcInit s = .next { s with crc := 0xFFFF#16 }) ∧
  decode 0x01000000#32 = .ok .crcInit ∧
  (∀ (w : Word) (s : State), w.extractLsb' 24 8 = 0x01#8 → w ≠ 0x01000000#32 →
    stepWord w s = .next { s with cmdErr := true })

/-- R63. Its example values are the spec's own derivation from R57's loop (general knowledge, log entry 9), hence the basis. -/
def Obligations.CrcByteCommand : Prop :=
  (∀ (d : Byte) (s : State), exec (.crcByte d) s = .next { s with crc := crcStep s.crc d }) ∧
  (∀ d : Byte, decode (0x02000000#32 ||| d.setWidth 32) = .ok (.crcByte d)) ∧
  (∀ (w : Word) (s : State), w.extractLsb' 24 8 = 0x02#8 → w.extractLsb' 8 16 ≠ 0#16 →
    stepWord w s = .next { s with cmdErr := true }) ∧
  crcStep 0xFFFF#16 0x00#8 = 0x0F87#16 ∧ crcStep 0xFFFF#16 0xFF#8 = 0x00FF#16 ∧
  crcStep 0xFFFF#16 0x31#8 = 0x2F8D#16

/-- R64, whole. -/
def Obligations.CrcReadCommand : Prop :=
  (∀ s : State, exec .crcRead s = .next { s with events := s.events ++ [.result s.crc] }) ∧
  decode 0x03000000#32 = .ok .crcRead ∧
  (∀ (w : Word) (s : State), w.extractLsb' 24 8 = 0x03#8 → w ≠ 0x03000000#32 →
    stepWord w s = .next { s with cmdErr := true }) ∧
  exec .crcRead State.reset = .next { State.reset with events := State.reset.events ++ [.result 0xFFFF#16] } ∧
  (∀ s : State, execAll [.crcInit, .crcRead] s =
    .next { s with crc := 0xFFFF#16, events := s.events ++ [.result 0xFFFF#16] }) ∧
  (∀ s : State,
    execAll (crcBlock [0x31#8, 0x32#8, 0x33#8, 0x34#8, 0x35#8, 0x36#8, 0x37#8, 0x38#8, 0x39#8] ++ [.crcRead]) s =
      .next { s with crc := 0x6F91#16, events := s.events ++ [.result 0x6F91#16] }) ∧
  (∀ (xs : List Byte) (s : State), ∃ v : U16,
    execAll (crcBlock xs ++ [.crcRead]) s = .next { s with crc := v, events := s.events ++ [.result v] } ∧
    (compute xs).head? = some (v.extractLsb' 8 8))

/-- R65, whole. -/
def Obligations.CrcVerifyCommand : Prop :=
  (∀ (k : U16) (s : State), exec (.crcVerify k) s =
    .next { s with events := s.events ++ [.result (if s.crc = k then 0x0001#16 else 0x0000#16)] }) ∧
  (∀ k : U16, decode (0x04000000#32 ||| k.setWidth 32) = .ok (.crcVerify k)) ∧
  (∀ (w : Word) (s : State), w.extractLsb' 24 8 = 0x04#8 → w.extractLsb' 16 8 ≠ 0#8 →
    stepWord w s = .next { s with cmdErr := true }) ∧
  (∀ (s : State) (k : U16), k.extractLsb' 8 8 = s.crc.extractLsb' 0 8 → k.extractLsb' 0 8 = s.crc.extractLsb' 8 8 →
    k.extractLsb' 8 8 ≠ k.extractLsb' 0 8 →
    exec (.crcVerify k) s = .next { s with events := s.events ++ [.result 0x0000#16] }) ∧
  (∀ (xs : List Byte) (k : U16) (s : State), execAll (crcBlock xs ++ [.crcVerify k]) s =
    .next { s with
      crc := crc16 xs
      events := s.events ++
        [.result (if verify xs [k.extractLsb' 8 8, k.extractLsb' 0 8] then 0x0001#16 else 0x0000#16)] }) ∧
  (∀ s : State, execAll [.crcInit, .crcVerify 0xFFFF#16] s =
    .next { s with crc := 0xFFFF#16, events := s.events ++ [.result 0x0001#16] }) ∧
  (∀ s : State,
    execAll (crcBlock [0x31#8, 0x32#8, 0x33#8, 0x34#8, 0x35#8, 0x36#8, 0x37#8, 0x38#8, 0x39#8] ++
        [.crcVerify 0x6F91#16, .crcVerify 0x916F#16]) s =
      .next { s with crc := 0x6F91#16, events := s.events ++ [.result 0x0001#16, .result 0x0000#16] })

/-- R71, whole. -/
def Obligations.TxStartCommand : Prop :=
  (∀ s : State, s.txActive = false → exec .txStart s =
    .next { s with txActive := true, txCrc := 0xFFFF#16, events := s.events ++ [.txByte 0x10#8, .txByte 0x02#8] }) ∧
  (∀ s : State, s.txActive = true → exec .txStart s = .next { s with cmdErr := true }) ∧
  decode 0x10000000#32 = .ok .txStart ∧
  (∀ (w : Word) (s : State), w.extractLsb' 24 8 = 0x10#8 → w ≠ 0x10000000#32 →
    stepWord w s = .next { s with cmdErr := true }) ∧
  (∀ s t : State, exec .txStart s = .next t → (statusWord t).getLsbD 11 = true) ∧
  exec .txStart State.reset =
    .next { State.reset with txActive := true, txCrc := 0xFFFF#16, events := State.reset.events ++ [.txByte 0x10#8, .txByte 0x02#8] }

/-- R72, whole; 0x02 and 0x03 fall under the case of one raw byte. -/
def Obligations.TxByteCommand : Prop :=
  (∀ (d : Byte) (s : State), s.txActive = true → exec (.txByte d) s =
    .next { s with
      txCrc := crcStep s.txCrc d
      events := s.events ++ (if d = 0x10#8 then [.txByte 0x10#8, .txByte 0x10#8] else [.txByte d]) }) ∧
  (∀ (d : Byte) (s : State), s.txActive = false → exec (.txByte d) s = .next { s with cmdErr := true }) ∧
  (∀ d : Byte, decode (0x11000000#32 ||| d.setWidth 32) = .ok (.txByte d)) ∧
  (∀ (w : Word) (s : State), w.extractLsb' 24 8 = 0x11#8 → w.extractLsb' 8 16 ≠ 0#16 →
    stepWord w s = .next { s with cmdErr := true })

/-- R98, whole; it is legal at any body position since only tx_active is asked of the state. -/
def Obligations.TxSeqCommand : Prop :=
  (∀ s : State, s.txActive = true → exec .txSeq s =
    .next { s with
      seq := s.seq + 1#8
      txCrc := crcStep s.txCrc s.seq
      events := s.events ++ (if s.seq = 0x10#8 then [.txByte 0x10#8, .txByte 0x10#8] else [.txByte s.seq]) }) ∧
  (∀ s : State, s.txActive = true → exec .txSeq s = exec (.txByte s.seq) { s with seq := s.seq + 1#8 }) ∧
  (∀ s : State, s.txActive = false → exec .txSeq s = .next { s with cmdErr := true }) ∧
  decode 0x12000000#32 = .ok .txSeq ∧
  (∀ (w : Word) (s : State), w.extractLsb' 24 8 = 0x12#8 → w ≠ 0x12000000#32 →
    stepWord w s = .next { s with cmdErr := true }) ∧
  (∀ s : State, s.txActive = false → s.seq = 0#8 →
    ∃ t, execAll [.txStart, .txByte 0x01#8, .txByte 0x15#8, .txSeq] s = .next t ∧ t.seq = 1#8 ∧
      t.events = s.events ++ [.txByte 0x10#8, .txByte 0x02#8, .txByte 0x01#8, .txByte 0x15#8, .txByte 0x00#8])

/-- R73, whole. -/
def Obligations.TxEndCommand : Prop :=
  (∀ s : State, s.txActive = true → exec .txEnd s =
    .next { s with
      txActive := false
      txCrc := crcStep (crcStep s.txCrc 0x10#8) 0x03#8
      events := s.events ++ [.txByte 0x10#8, .txByte 0x03#8,
        .txByte ((crcStep (crcStep s.txCrc 0x10#8) 0x03#8).extractLsb' 8 8),
        .txByte ((crcStep (crcStep s.txCrc 0x10#8) 0x03#8).extractLsb' 0 8)] }) ∧
  (∀ s : State, s.txActive = false → exec .txEnd s = .next { s with cmdErr := true }) ∧
  decode 0x13000000#32 = .ok .txEnd ∧
  (∀ (w : Word) (s : State), w.extractLsb' 24 8 = 0x13#8 → w ≠ 0x13000000#32 →
    stepWord w s = .next { s with cmdErr := true }) ∧
  (∀ s t : State, exec .txEnd s = .next t → (statusWord t).getLsbD 11 = false) ∧
  (∀ s : State, s.txActive = false → execAll [.txStart, .txEnd] s =
    .next { s with txCrc := 0x57B2#16, events := s.events ++
      [.txByte 0x10#8, .txByte 0x02#8, .txByte 0x10#8, .txByte 0x03#8, .txByte 0x57#8, .txByte 0xB2#8] }) ∧
  crc16 [0x10#8, 0x03#8] = 0x57B2#16

/-- R80 without its choice among R81 to R86, which six statements of their own say; R90 and R105. -/
def Obligations.RxByteCommand : Prop :=
  (∀ (d : Byte) (s : State), ∃ t, exec (.rxByte d) s = .next t ∧
    t = { s with rxState := t.rxState, rxMsg := t.rxMsg, rxCk := t.rxCk, rxOvf := t.rxOvf, rxShort := t.rxShort,
                 events := t.events } ∧
    (s.rxOvf = true → t.rxOvf = true) ∧ (s.rxShort = true → t.rxShort = true) ∧
    (t.events = s.events ∨ s.rxState = .checksum2 ∧ ∃ m, t.events = s.events ++ [.deliver m])) ∧
  (∀ d : Byte, decode (0x20000000#32 ||| d.setWidth 32) = .ok (.rxByte d)) ∧
  (∀ (w : Word) (s : State), w.extractLsb' 24 8 = 0x20#8 → w.extractLsb' 8 16 ≠ 0#16 →
    stepWord w s = .next { s with cmdErr := true }) ∧
  (∀ s t : State, s.rxState = .idle → exec (.rxByte 0x10#8) s = .next t → t.rxState = .waitStart)

/-- R92, whole. In IDLE the buffers are empty by R25, which is the hypothesis of the second clause. -/
def Obligations.RxResetCommand : Prop :=
  (∀ s : State, exec .rxReset s = .next { s with rxState := .idle, rxMsg := [], rxCk := [] }) ∧
  (∀ s : State, s.Inv → s.rxState = .idle → exec .rxReset s = .next s) ∧
  decode 0x21000000#32 = .ok .rxReset ∧
  (∀ (w : Word) (s : State), w.extractLsb' 24 8 = 0x21#8 → w ≠ 0x21000000#32 →
    stepWord w s = .next { s with cmdErr := true })

/-- R97, whole. -/
def Obligations.SeqNextCommand : Prop :=
  (∀ s : State, exec .seqNext s =
    .next { s with seq := s.seq + 1#8, events := s.events ++ [.result (s.seq.setWidth 16)] }) ∧
  (∀ s : State, s.seq = 255#8 →
    exec .seqNext s = .next { s with seq := 0#8, events := s.events ++ [.result 0x00FF#16] }) ∧
  decode 0x30000000#32 = .ok .seqNext ∧
  (∀ (w : Word) (s : State), w.extractLsb' 24 8 = 0x30#8 → w ≠ 0x30000000#32 →
    stepWord w s = .next { s with cmdErr := true }) ∧
  execAll [.seqNext, .seqNext, .seqNext] State.reset =
    .next { State.reset with seq := 3#8, events := State.reset.events ++ [.result 0x0000#16, .result 0x0001#16, .result 0x0002#16] }

/-- R102, whole. -/
def Obligations.StatusReadCommand : Prop :=
  (∀ s : State, exec .statusRead s = .next { s with events := s.events ++ [.result (statusWord s)] }) ∧
  decode 0x40000000#32 = .ok .statusRead ∧
  (∀ (w : Word) (s : State), w.extractLsb' 24 8 = 0x40#8 → w ≠ 0x40000000#32 →
    stepWord w s = .next { s with cmdErr := true }) ∧
  exec .statusRead State.reset = .next { State.reset with events := State.reset.events ++ [.result 0x0000#16] } ∧
  (∀ s : State, s.rxState = .waitStart → s.txActive = false → s.cmdErr = false → s.rxOvf = false →
    s.rxShort = false → exec .statusRead s = .next { s with events := s.events ++ [.result 0x0100#16] }) ∧
  (∀ s : State, s.rxState = .idle → s.txActive = true → s.cmdErr = false → s.rxOvf = false →
    s.rxShort = false → exec .statusRead s = .next { s with events := s.events ++ [.result 0x0800#16] }) ∧
  (∀ s : State, s.rxState = .idle → s.txActive = false → s.cmdErr = true → s.rxOvf = false →
    s.rxShort = false → exec .statusRead s = .next { s with events := s.events ++ [.result 0x0001#16] })

/-- R103, whole. -/
def Obligations.StatusClearCommand : Prop :=
  (∀ (m : BitVec 3) (s : State), exec (.statusClear m) s =
    .next { s with
      cmdErr := s.cmdErr && !m.getLsbD 0
      rxOvf := s.rxOvf && !m.getLsbD 1
      rxShort := s.rxShort && !m.getLsbD 2 }) ∧
  (∀ s : State, exec (.statusClear 0#3) s = .next s) ∧
  (∀ m : BitVec 3, decode (0x41000000#32 ||| m.setWidth 32) = .ok (.statusClear m)) ∧
  (∀ (w : Word) (s : State), w.extractLsb' 24 8 = 0x41#8 → w.extractLsb' 3 21 ≠ 0#21 →
    stepWord w s = .next { s with cmdErr := true })

/-- R81, whole. -/
def Obligations.RxInIdle : Prop :=
  ∀ (s : State) (d : Byte), s.rxState = .idle →
  exec (.rxByte d) s = .next (if d = 0x10#8 then { s with rxState := .waitStart } else s)

/-- R82, whole. -/
def Obligations.RxInWaitStart : Prop :=
  (∀ (s : State) (d : Byte), s.rxState = .waitStart →
    exec (.rxByte d) s = .next (if d = 0x02#8 then { s with rxMsg := [], rxState := .message }
      else { s with rxState := .idle, rxMsg := [], rxCk := [] })) ∧
  (∀ s : State, s.Inv → s.rxState = .idle →
    execAll [.rxByte 0x10#8, .rxByte 0x10#8, .rxByte 0x02#8] s = .next s)

/-- R83, whole, with R79's append written out. -/
def Obligations.RxInMessage : Prop :=
  ∀ (s : State) (d : Byte), s.rxState = .message →
  exec (.rxByte d) s = .next (
    if d = 0x10#8 then { s with rxState := .messageEscape }
    else if s.rxMsg.length = s.rxMaxBody then { s with rxOvf := true, rxState := .idle, rxMsg := [], rxCk := [] }
    else { s with rxMsg := s.rxMsg ++ [d] })

/-- R84, whole, with R79's append written out. -/
def Obligations.RxInMessageEscape : Prop :=
  ∀ (s : State) (d : Byte), s.rxState = .messageEscape →
  exec (.rxByte d) s = .next (
    if d = 0x10#8 then
      (if s.rxMsg.length = s.rxMaxBody then { s with rxOvf := true, rxState := .idle, rxMsg := [], rxCk := [] }
       else { s with rxMsg := s.rxMsg ++ [0x10#8], rxState := .message })
    else if d = 0x03#8 then { s with rxCk := [], rxState := .checksum1 }
    else { s with rxState := .idle, rxMsg := [], rxCk := [] })

/-- R85, whole. -/
def Obligations.RxInChecksum1 : Prop :=
  ∀ (s : State) (d : Byte), s.rxState = .checksum1 →
  exec (.rxByte d) s = .next { s with rxCk := s.rxCk ++ [d], rxState := .checksum2 }

/-- R86, whole; the delivered record is R88's, with R89's signed reading as the two's complement value of the byte. -/
def Obligations.RxInChecksum2 : Prop :=
  (∀ (s : State) (d a b c f : Byte) (p : List Byte), s.rxState = .checksum2 → s.rxMsg = a :: b :: c :: f :: p →
    s.rxCk ++ [d] = compute (s.rxMsg ++ [0x10#8, 0x03#8]) →
    exec (.rxByte d) s = .next { s with rxState := .idle, rxMsg := [], rxCk := [], events := s.events ++ [.deliver ⟨a, b, c, f.toInt, p⟩] }) ∧
  (∀ (s : State) (d : Byte), s.rxState = .checksum2 → s.rxMsg.length < 4 →
    s.rxCk ++ [d] = compute (s.rxMsg ++ [0x10#8, 0x03#8]) →
    exec (.rxByte d) s = .next { s with rxState := .idle, rxMsg := [], rxCk := [], rxShort := true }) ∧
  (∀ (s : State) (d : Byte), s.rxState = .checksum2 → s.rxCk ++ [d] ≠ compute (s.rxMsg ++ [0x10#8, 0x03#8]) →
    exec (.rxByte d) s = .next { s with rxState := .idle, rxMsg := [], rxCk := [] }) ∧
  (∀ (s : State) (hi lo : Byte), s.rxState = .checksum2 → compute (s.rxMsg ++ [0x10#8, 0x03#8]) = [hi, lo] →
    s.rxCk = [lo] → hi ≠ lo → exec (.rxByte hi) s = .next { s with rxState := .idle, rxMsg := [], rxCk := [] })

/-- R78, whole. -/
def Obligations.IdleClearsBuffers : Prop :=
  ∀ (i : Instr) (s t : State), exec i s = .next t → s.rxState ≠ .idle → t.rxState = .idle →
  t.rxMsg = [] ∧ t.rxCk = []

/-- R79, whole. -/
def Obligations.AppendWithinCapacity : Prop :=
  (∀ (b : Byte) (s : State), s.rxMsg.length = s.rxMaxBody →
    rxAppend b s = (false, { s with rxOvf := true, rxState := .idle, rxMsg := [], rxCk := [] })) ∧
  (∀ (b : Byte) (s : State), s.rxMsg.length ≠ s.rxMaxBody →
    rxAppend b s = (true, { s with rxMsg := s.rxMsg ++ [b] })) ∧
  (∀ (b : Byte) (s : State), s.rxMsg.length + 1 = s.rxMaxBody →
    (rxAppend b s).1 = true ∧ (rxAppend b s).2.rxMsg.length = s.rxMaxBody)

/-- R88, whole. That a shorter body has no message is the model's representation (log entry 10) and is not stated here. -/
def Obligations.UnpackSplitsHeader : Prop :=
  (∀ (a b c f : Byte) (p : List Byte), unpack (a :: b :: c :: f :: p) = some ⟨a, b, c, f.toInt, p⟩) ∧
  (∀ body : List Byte, 4 ≤ body.length →
    ∃ m, unpack body = some m ∧ m.payload = body.drop 4 ∧ m.payload.length + 4 = body.length)

/-- R89. Three of its examples are marked as derived by the spec, hence the basis. -/
def Obligations.RssiReading : Prop :=
  (∀ f : Byte, s8 f = (if 128 ≤ f.toNat then (f.toNat : Int) - 256 else (f.toNat : Int)) ∧
    -128 ≤ s8 f ∧ s8 f ≤ 127 ∧ BitVec.ofInt 8 (s8 f) = f) ∧
  s8 200#8 = -56 ∧ s8 100#8 = 100 ∧ s8 0#8 = 0 ∧ s8 128#8 = -128 ∧ s8 255#8 = -1 ∧ s8 127#8 = 127

/-- R66, whole, with R67's coverage: every byte in its place. -/
def Obligations.PackLayout : Prop :=
  ∀ (p : List Byte) (a b c f : Byte), pack p a b c f =
  [0x10#8, 0x02#8] ++ stuff ([a, b, c, f] ++ p) ++ [0x10#8, 0x03#8] ++
    [(crc16 ([a, b, c, f] ++ p ++ [0x10#8, 0x03#8])).extractLsb' 8 8,
     (crc16 ([a, b, c, f] ++ p ++ [0x10#8, 0x03#8])).extractLsb' 0 8]

/-- R68, R69's length and R70; the spec marks the lengths and R70 as derived. -/
def Obligations.StuffingDoublesEsc : Prop :=
  (∀ xs : List Byte, stuff xs = xs.flatMap fun b => if b = 0x10#8 then [0x10#8, 0x10#8] else [b]) ∧
  (∀ xs : List Byte, escPaired (stuff xs) = true) ∧
  (∀ xs : List Byte, (stuff xs).length = xs.length + xs.count 0x10#8) ∧
  (∀ (p : List Byte) (a b c f : Byte),
    (pack p a b c f).length = 10 + p.length + ([a, b, c, f] ++ p).count 0x10#8)

/-- R75, which the spec derives from R71 to R73 and R58. -/
def Obligations.StreamingIsPack : Prop :=
  ∀ (cs : List Instr) (s : State) (p : List Byte) (a b c f : Byte), s.txActive = false →
  cs.filter isTxCommand = .txStart :: ([a, b, c, f] ++ p).map .txByte ++ [.txEnd] →
  ∃ t, execAll cs s = .next t ∧ t.txActive = false ∧
    txBytes t.events = txBytes s.events ++ pack p a b c f

/-- R93, which the spec derives from R69, R68 and R81 to R88. -/
def Obligations.RoundTrip : Prop :=
  ∀ (s : State) (p : List Byte) (a b c f : Byte), s.rxState = .idle → 4 + p.length ≤ s.rxMaxBody →
  (∃ u, execAll ((pack p a b c f).dropLast.map .rxByte) s = .next u ∧ u.events = s.events) ∧
  execAll ((pack p a b c f).map .rxByte) s =
    .next { s with rxState := .idle, rxMsg := [], rxCk := [], events := s.events ++ [.deliver ⟨a, b, c, f.toInt, p⟩] }

/-- R21, whole. -/
def Obligations.OnlyNextMovesCounter : Prop :=
  (∀ s : State, ∃ t, exec .seqNext s = .next t ∧ t.seq.toNat = (s.seq.toNat + 1) % 256) ∧
  (∀ s : State, s.txActive = true → ∃ t, exec .txSeq s = .next t ∧ t.seq.toNat = (s.seq.toNat + 1) % 256) ∧
  (∀ s : State, s.txActive = false → ∃ t, exec .txSeq s = .next t ∧ t.seq = s.seq) ∧
  (∀ (i : Instr) (s : State) (v : Byte), i ≠ .seqNext → i ≠ .txSeq →
    ∃ t, exec i s = .next t ∧ t.seq = s.seq ∧ exec i { s with seq := v } = .next { t with seq := v }) ∧
  State.reset.seq = 0#8

/-- R99 and R100, which the spec derives from R95; n = 257 from 0 is the document's wrap-around. -/
def Obligations.CounterRunsInOrder : Prop :=
  (∀ (n : Nat) (s : State), execAll (List.replicate n .seqNext) s =
    .next { s with
      seq := s.seq + BitVec.ofNat 8 n
      events := s.events ++ (List.range n).map fun k => .result ((s.seq + BitVec.ofNat 8 k).setWidth 16) }) ∧
  (∀ (cs : List Instr) (s : State), s.txActive = true → (∀ i ∈ cs, i = .seqNext ∨ i = .txSeq) →
    ∃ t, execAll cs s = .next t ∧ t.seq = s.seq + BitVec.ofNat 8 cs.length)

/-- R53, whole. -/
def Obligations.ResultsFromFourCommands : Prop :=
  (∀ (i : Instr) (s t : State), exec i s = .next t →
    results t.events = results s.events ++
      (match i with
        | .crcRead => [s.crc]
        | .crcVerify k => [if s.crc = k then 0x0001#16 else 0x0000#16]
        | .seqNext => [s.seq.setWidth 16]
        | .statusRead => [statusWord s]
        | _ => [])) ∧
  (∀ (w : Word) (e : IllegalReason) (s t : State), decode w = .error e → stepWord w s = .next t →
    results t.events = results s.events)

/-- R77: the two sides are independent and their commands may interleave in any order. -/
def Obligations.TransmitAndReceiveIndependent : Prop :=
  ∀ (a b : Instr) (s : State), isTxCommand a = true → isRxCommand b = true →
  ∃ t t' u v, execAll [a, b] s = .next t ∧ execAll [b, a] s = .next t' ∧
    t' = { t with events := t'.events } ∧ txBytes t'.events = txBytes t.events ∧
    deliveries t'.events = deliveries t.events ∧ results t'.events = results t.events ∧
    exec a s = .next u ∧ u.rxState = s.rxState ∧ u.rxMsg = s.rxMsg ∧ u.rxCk = s.rxCk ∧
    exec b s = .next v ∧ v.txActive = s.txActive ∧ v.txCrc = s.txCrc ∧ v.seq = s.seq

/-- R126, whole; that the checksum is the frame's is StreamingIsPack. -/
def Obligations.OpenFrameEndsTwoWays : Prop :=
  (∀ s t : State, step s = .next t → s.txActive = true → t.txActive = false →
    (∃ rest, s.inputs = .reset :: rest) ∨
    (∃ rest, s.inputs = .command 0x13000000#32 :: rest ∧
      t.events = s.events ++ ([0x10#8, 0x03#8,
        (crcStep (crcStep s.txCrc 0x10#8) 0x03#8).extractLsb' 8 8,
        (crcStep (crcStep s.txCrc 0x10#8) 0x03#8).extractLsb' 0 8].map Event.txByte))) ∧
  (∀ (s : State) (rest : List Input),
    s.inputs = .reset :: rest ∨ s.inputs = .command 0x13000000#32 :: rest →
    ∃ t, step s = .next t ∧ t.txActive = false)

/-- R18, whole. -/
def Obligations.HostCrcIsItsOwn : Prop :=
  (∀ s : State, ∃ t, exec .crcInit s = .next t ∧ t.crc = 0xFFFF#16) ∧
  (∀ (d : Byte) (s : State), ∃ t, exec (.crcByte d) s = .next t ∧ t.crc = crcStep s.crc d) ∧
  (∀ s : State, ∃ t, exec .crcRead s = .next t ∧ t.crc = s.crc) ∧
  (∀ (k : U16) (s : State), ∃ t, exec (.crcVerify k) s = .next t ∧ t.crc = s.crc) ∧
  (∀ (i : Instr) (s : State) (v : U16), i ≠ .crcInit → (∀ d, i ≠ .crcByte d) → i ≠ .crcRead →
    (∀ k, i ≠ .crcVerify k) →
    ∃ t, exec i s = .next t ∧ t.crc = s.crc ∧ exec i { s with crc := v } = .next { t with crc := v }) ∧
  State.reset.crc = 0xFFFF#16 ∧
  exec .crcRead State.reset = .next { State.reset with events := State.reset.events ++ [.result 0xFFFF#16] }

/-- R19's independence and unobservability; what sets and folds tx_crc is said by the statements of the transmit commands. -/
def Obligations.TransmitCrcUnobservedOutsideFrame : Prop :=
  (∀ (i : Instr) (s : State) (v : U16), s.txActive = false →
    ∃ t t', exec i s = .next t ∧ exec i { s with txCrc := v } = .next t' ∧ t'.events = t.events ∧
      t' = { t with txCrc := t'.txCrc } ∧ (t.txActive = true → t'.txCrc = t.txCrc)) ∧
  (∀ (i : Instr) (s : State), (i = .crcInit ∨ i = .crcRead ∨ (∃ d, i = .crcByte d) ∨ ∃ k, i = .crcVerify k) →
    ∃ t, exec i s = .next t ∧ t.txCrc = s.txCrc)

/-- R55, whole: the effect of each expansion. -/
def Obligations.PseudoInstructionEffects : Prop :=
  (∀ (xs : List Byte) (s : State), execAll (Pseudo.crcBlock xs).expand s = .next { s with crc := crc16 xs }) ∧
  (∀ (xs : List Byte) (s : State), execAll (Pseudo.crcOf xs).expand s =
    .next { s with crc := crc16 xs, events := s.events ++ [.result (crc16 xs)] }) ∧
  (∀ (xs : List Byte) (k : U16) (s : State), execAll (Pseudo.crcCheck xs k).expand s =
    .next { s with
      crc := crc16 xs
      events := s.events ++
        [.result (if verify xs [k.extractLsb' 8 8, k.extractLsb' 0 8] then 0x0001#16 else 0x0000#16)] }) ∧
  (∀ (p : List Byte) (a b c f : Byte) (s : State), s.txActive = false →
    ∃ t, execAll (Pseudo.txFrame p a b c f).expand s = .next t ∧ t.txActive = false ∧
      t.events = s.events ++ (pack p a b c f).map .txByte) ∧
  (∀ (p : List Byte) (a b f : Byte) (s : State), s.txActive = false →
    ∃ t, execAll (Pseudo.txFrameSeq p a b f).expand s = .next t ∧ t.txActive = false ∧ t.seq = s.seq + 1#8 ∧
      t.events = s.events ++ (pack p a b s.seq f).map .txByte) ∧
  (∀ xs : List Byte, (Pseudo.rxFeed xs).expand = xs.map .rxByte) ∧
  (∀ s : State, execAll Pseudo.statusClearAll.expand s =
    .next { s with cmdErr := false, rxOvf := false, rxShort := false })

/-- R54 with the opcodes and forms of R49. What an operand text stands for is AssemblerReadsOperands. Blanks, empty lines and a semicolon between quotes are the model's choice (log entry 11, DESIGN CHOICE). -/
def Obligations.AssemblerMakesCommandWords : Prop :=
  (∀ (name operand : List Char) (w : Word), assembleCommand name operand = .ok w ↔
    ∃ row ∈ ([("NOP", 0x00#8, .z), ("CRC_INIT", 0x01#8, .z), ("CRC_BYTE", 0x02#8, .b), ("CRC_READ", 0x03#8, .z),
        ("CRC_VERIFY", 0x04#8, .h), ("TX_START", 0x10#8, .z), ("TX_BYTE", 0x11#8, .b), ("TX_SEQ", 0x12#8, .z),
        ("TX_END", 0x13#8, .z), ("RX_BYTE", 0x20#8, .b), ("RX_RESET", 0x21#8, .z), ("SEQ_NEXT", 0x30#8, .z),
        ("STATUS_READ", 0x40#8, .z), ("STATUS_CLEAR", 0x41#8, .m)] : List (String × BitVec 8 × Form)),
      name = row.1.toList ∧ ∃ v : Nat,
        ((row.2.2 = .z ∧ operand = [] ∧ v = 0) ∨
          (row.2.2 ≠ .z ∧ operand ≠ [] ∧ parseOperand row.2.2 operand = some v ∧
            row.2.2.accepts (some v) = true)) ∧
        w = (row.2.1.setWidth 32 <<< 24) ||| BitVec.ofNat 32 v) ∧
  (∀ (line : List Char) (w : Word), assembleLine line = .ok (some w) ↔
    trim (stripComment line) ≠ [] ∧
    assembleCommand ((trim (stripComment line)).takeWhile fun c => !isBlank c)
      (trim ((trim (stripComment line)).dropWhile fun c => !isBlank c)) = .ok w) ∧
  (∀ line : List Char, assembleLine line = .ok none ↔ trim (stripComment line) = []) ∧
  (∀ text comment : List Char, ';' ∉ text → '\'' ∉ text →
    assembleLine (text ++ ';' :: comment) = assembleLine text) ∧
  (∀ (line : List Char) (w : Word), assembleLine line = .ok (some w) → ∃ i, decode w = .ok i) ∧
  (∀ i : Instr, asmWord (opcodeOf i) (operandOf i).toNat = encode i) ∧
  assembleLine "CRC_BYTE 'A'".toList = .ok (some 0x02000041#32)

/-- R59, whole, and the self-check of R60 that follows from it. -/
def Obligations.ComputeAndVerify : Prop :=
  (∀ xs : List Byte, compute xs = [(crc16 xs).extractLsb' 8 8, (crc16 xs).extractLsb' 0 8]) ∧
  (∀ (xs : List Byte) (k0 k1 : Byte),
    verify xs [k0, k1] = true ↔ crc16 xs = (k0.setWidth 16 <<< 8) ||| k1.setWidth 16) ∧
  (∀ xs k : List Byte, k.length = 2 → (verify xs k = true ↔ compute xs = k)) ∧
  (∀ xs : List Byte, verify xs (compute xs) = true)

/-- R57's loop with its literals (general knowledge in the spec, 93 GK1: log entry 9), R58's fold, R61's check value, V-CRC-6 for every list. -/
def Obligations.CrcIsReflectedLfsr : Prop :=
  (∀ (c : U16) (b : Byte), crcStep c b =
    Nat.repeat (fun r : U16 => if r.getLsbD 0 then (r >>> 1) ^^^ 0x8408#16 else r >>> 1) 8 (c ^^^ b.setWidth 16)) ∧
  (∀ xs : List Byte, crc16 xs = xs.foldl crcStep 0xFFFF#16) ∧
  (∀ (c c' : U16) (b b' : Byte), crcStep (c ^^^ c') (b ^^^ b') = crcStep c b ^^^ crcStep c' b') ∧
  crc16 [0x31#8, 0x32#8, 0x33#8, 0x34#8, 0x35#8, 0x36#8, 0x37#8, 0x38#8, 0x39#8] = 0x6F91#16 ∧
  (∀ xs : List Byte, crc16 (xs ++ [(crc16 xs).extractLsb' 0 8, (crc16 xs).extractLsb' 8 8]) = 0#16)

/-- R57 and R58: the CRC step is injective in the register and in the byte. R60's warning is about lists that differ elsewhere too. -/
def Obligations.OneWrongByteIsDetected : Prop :=
  ∀ (xs ys : List Byte) (b b' : Byte), b ≠ b' → crc16 (xs ++ b :: ys) ≠ crc16 (xs ++ b' :: ys)

/-- R54's operand forms. Digits of either case, the prefix 0x, blanks around a flag name and the ASCII bound of a literal are the model's choice (log entry 11, DESIGN CHOICE). -/
def Obligations.AssemblerReadsOperands : Prop :=
  (∀ (cs : List Char) (v : Nat), parseOperand .h cs = some v ↔ NumberText cs v) ∧
  (∀ (cs : List Char) (v : Nat), parseOperand .b cs = some v ↔
    NumberText cs v ∨ ∃ c : Char, c.toNat < 128 ∧ cs = ['\'', c, '\''] ∧ v = c.toNat) ∧
  (∀ (cs : List Char) (v : Nat), parseOperand .m cs = some v ↔
    NumberText cs v ∨ ∃ ps : List (List Char × Nat), ps ≠ [] ∧
      (∀ p ∈ ps, (trim p.1, p.2) ∈ [("CMD_ERR".toList, 1), ("RX_OVF".toList, 2), ("RX_SHORT".toList, 4)]) ∧
      cs = List.intercalate ['|'] (ps.map Prod.fst) ∧ v = ps.foldl (fun n p => n ||| p.2) 0) ∧
  (∀ (f : Form) (v : Nat), f.accepts (some v) = true ↔
    (f = .b ∧ v < 256) ∨ (f = .h ∧ v < 65536) ∨ (f = .m ∧ v < 8)) ∧
  (∀ f : Form, f.accepts none = true ↔ f = .z)
end

