-- ==== Sys2Proof/Laws/Assembler.lean ====
section
/-! SUPPORT. What the assembler's readers of digits, flag names and comments answer (R54). -/

namespace Sys2Proof.Machine

/-- A decimal digit is read as its value. -/
theorem decDigit_decChar (d : Fin 10) : decDigit (decChar d) = some d.val := by revert d; decide
/-- A hexadecimal digit of either case is read as its value. -/
theorem hexDigit_hexChar (d : Fin 16) (u : Bool) : hexDigit (hexChar d u) = some d.val := by revert d u; decide

/-- Characters with one code are equal. -/
theorem char_eq_of_toNat {c d : Char} (h : c.toNat = d.toNat) : c = d := Char.ext (UInt32.toNat_inj.mp h)

/-- Only decimal digits are read as decimal digits. -/
theorem decDigit_eq_some {c : Char} {n : Nat} (h : decDigit c = some n) : ∃ d : Fin 10, c = decChar d ∧ n = d.val := by
  unfold decDigit at h
  split at h
  · rename_i hc
    have hn : n < 10 := by simp at h; omega
    have hb : c.toNat = 48 + n := by simp at h; omega
    refine ⟨⟨n, hn⟩, ?_, rfl⟩
    apply char_eq_of_toNat
    rw [hb]
    have : ∀ d : Fin 10, 48 + d.val = (decChar d).toNat := by decide
    exact this ⟨n, hn⟩
  · cases h

/-- Only hexadecimal digits are read as hexadecimal digits. -/
theorem hexDigit_eq_some {c : Char} {n : Nat} (h : hexDigit c = some n) :
    ∃ (d : Fin 16) (u : Bool), c = hexChar d u ∧ n = d.val := by
  have key : ∀ d : Fin 16, ((hexChar d false).toNat = if d.val < 10 then 48 + d.val else 87 + d.val) ∧
      ((hexChar d true).toNat = if d.val < 10 then 48 + d.val else 55 + d.val) := by decide
  unfold hexDigit at h
  split at h
  · have hn : n < 16 := by simp at h; omega
    refine ⟨⟨n, hn⟩, false, char_eq_of_toNat ?_, rfl⟩
    rw [(key ⟨n, hn⟩).1, if_pos] <;> simp at h ⊢ <;> omega
  split at h
  · have hn : n < 16 := by simp at h; omega
    refine ⟨⟨n, hn⟩, true, char_eq_of_toNat ?_, rfl⟩
    rw [(key ⟨n, hn⟩).2, if_neg] <;> simp at h ⊢ <;> omega
  split at h
  · have hn : n < 16 := by simp at h; omega
    refine ⟨⟨n, hn⟩, false, char_eq_of_toNat ?_, rfl⟩
    rw [(key ⟨n, hn⟩).1, if_neg] <;> simp at h ⊢ <;> omega
  · cases h

/-- Reading digits after a failure fails. -/
theorem foldl_digits_none {base : Nat} {digit : Char → Option Nat} (cs : List Char) :
    cs.foldl (fun acc c => acc.bind fun n => (digit c).map fun d => n * base + d) none = none := by
  induction cs with
  | nil => rfl
  | cons c cs ih => exact ih

/-- Reading digits from a start value answers exactly on texts of digits, with their positional value. -/
theorem foldl_digits {α : Type} {base : Nat} {digit : Char → Option Nat} {char : α → Char} {val : α → Nat}
    (hd : ∀ d, digit (char d) = some (val d)) (hs : ∀ {c n}, digit c = some n → ∃ d, c = char d ∧ n = val d)
    (cs : List Char) (k v : Nat) :
    cs.foldl (fun acc c => acc.bind fun n => (digit c).map fun d => n * base + d) (some k) = some v ↔
      ∃ ds : List α, cs = ds.map char ∧ v = ds.foldl (fun n d => base * n + val d) k := by
  induction cs generalizing k with
  | nil =>
    constructor
    · intro h; exact ⟨[], rfl, by simpa using h.symm⟩
    · rintro ⟨ds, h, rfl⟩
      have : ds = [] := by simpa using h.symm
      subst this; rfl
  | cons c cs ih =>
    cases h : digit c with
    | none =>
      simp only [List.foldl_cons, h, Option.map_none, Option.bind_some, foldl_digits_none]
      refine ⟨fun h => (nomatch h), ?_⟩
      rintro ⟨_ | ⟨d, ds⟩, he, -⟩
      · cases he
      · cases he; rw [hd] at h; cases h
    | some n =>
      simp only [List.foldl_cons, h, Option.map_some, Option.bind_some, ih]
      constructor
      · rintro ⟨ds, rfl, rfl⟩
        obtain ⟨d, rfl, rfl⟩ := hs h
        exact ⟨d :: ds, rfl, by simp [Nat.mul_comm]⟩
      · rintro ⟨_ | ⟨d, ds⟩, he, hv⟩
        · cases he
        · cases he
          rw [hd] at h; cases h
          exact ⟨ds, rfl, by simpa [Nat.mul_comm] using hv⟩

/-- What `parseDigits` answers, for any base and digit alphabet. -/
theorem parseDigits_eq_some {α : Type} {base : Nat} {digit : Char → Option Nat} {char : α → Char} {val : α → Nat}
    (hd : ∀ d, digit (char d) = some (val d)) (hs : ∀ {c n}, digit c = some n → ∃ d, c = char d ∧ n = val d)
    (cs : List Char) (v : Nat) :
    parseDigits base digit cs = some v ↔
      ∃ ds : List α, ds ≠ [] ∧ cs = ds.map char ∧ v = ds.foldl (fun n d => base * n + val d) 0 := by
  cases cs with
  | nil => simp [parseDigits]
  | cons c cs =>
    simp only [parseDigits, foldl_digits hd hs]
    constructor
    · rintro ⟨ds, h, hv⟩; exact ⟨ds, (by rintro rfl; cases h), h, hv⟩
    · rintro ⟨ds, -, h, hv⟩; exact ⟨ds, h, hv⟩

/-- What `flagValue` answers. -/
theorem flagValue_eq_some (cs : List Char) (v : Nat) : flagValue cs = some v ↔
    (cs = "CMD_ERR".toList ∧ v = 1) ∨ (cs = "RX_OVF".toList ∧ v = 2) ∨ (cs = "RX_SHORT".toList ∧ v = 4) := by
  have h1 : "CMD_ERR".toList ≠ "RX_OVF".toList := by decide
  have h2 : "CMD_ERR".toList ≠ "RX_SHORT".toList := by decide
  have h3 : "RX_OVF".toList ≠ "RX_SHORT".toList := by decide
  unfold flagValue
  split
  · rename_i h; rw [h]; simp only [h1, h2, true_and, false_and, or_false, Option.some.injEq, eq_comm]
  split
  · rename_i h; rw [h]; simp only [h1.symm, h3, true_and, false_and, or_false, false_or, Option.some.injEq, eq_comm]
  split
  · rename_i h; rw [h]
    simp only [h2.symm, h3.symm, true_and, false_and, false_or, Option.some.injEq, eq_comm]
  · rename_i a b c; simp only [a, b, c, false_and, or_false, reduceCtorEq]

/-- There is always a first piece. -/
theorem splitBars_ne_nil (cs : List Char) : splitBars cs ≠ [] := by
  cases cs with
  | nil => simp [splitBars]
  | cons c cs => simp only [splitBars]; split <;> [skip; split] <;> simp

/-- What one more character in front does to the pieces. -/
theorem splitBars_cons (c : Char) (cs : List Char) : ∃ w ws, splitBars cs = w :: ws ∧
    splitBars (c :: cs) = if c = '|' then [] :: w :: ws else (c :: w) :: ws := by
  obtain ⟨w, ws, h⟩ := List.exists_cons_of_ne_nil (splitBars_ne_nil cs)
  exact ⟨w, ws, h, by simp [splitBars, h]⟩

/-- Joining a list of two pieces or more. -/
theorem intercalate_cons_cons {α : Type} (s x y : List α) (l : List (List α)) :
    List.intercalate s (x :: y :: l) = x ++ s ++ List.intercalate s (y :: l) := by simp [List.intercalate]

/-- Joining the pieces gives the text back. -/
theorem splitBars_join (cs : List Char) : List.intercalate ['|'] (splitBars cs) = cs := by
  induction cs with
  | nil => rfl
  | cons c cs ih =>
    obtain ⟨w, ws, h, h'⟩ := splitBars_cons c cs
    rw [h] at ih
    rw [h']
    split
    · subst c; rw [intercalate_cons_cons, ih]; rfl
    · cases ws with
      | nil => simp [List.intercalate] at ih ⊢; exact ih
      | cons x xs => rw [intercalate_cons_cons] at ih ⊢; simp at ih ⊢; exact ih

/-- A text without a bar is one piece. -/
theorem splitBars_piece {x : List Char} (h : '|' ∉ x) : splitBars x = [x] := by
  induction x with
  | nil => rfl
  | cons c x ih =>
    simp at h
    simp [splitBars, ih h.2, Ne.symm h.1]

/-- A bar ends the first piece. -/
theorem splitBars_append {x : List Char} (h : '|' ∉ x) (cs : List Char) :
    splitBars (x ++ '|' :: cs) = x :: splitBars cs := by
  induction x with
  | nil =>
    obtain ⟨w, ws, h, h'⟩ := splitBars_cons '|' cs
    simp [h', h]
  | cons c x ih =>
    simp at h
    simp [splitBars, ih h.2, Ne.symm h.1]

/-- Splitting joined pieces gives them back. -/
theorem splitBars_intercalate {ws : List (List Char)} (h0 : ws ≠ []) (h : ∀ w ∈ ws, '|' ∉ w) :
    splitBars (List.intercalate ['|'] ws) = ws := by
  induction ws with
  | nil => exact absurd rfl h0
  | cons x ws ih =>
    cases ws with
    | nil => simpa [List.intercalate] using splitBars_piece (h x (by simp))
    | cons y ws =>
      rw [intercalate_cons_cons, List.append_assoc, List.singleton_append, splitBars_append (h x (by simp)),
        ih (by simp) (fun w hw => h w (by simp [hw]))]

/-- A semicolon after text without quotes begins the comment. -/
theorem stripComment_append (text comment : List Char) (h : ';' ∉ text) (hq : '\'' ∉ text) :
    stripComment (text ++ ';' :: comment) = stripComment text := by
  induction text with
  | nil => simp [stripComment]
  | cons c t ih =>
    simp at h hq
    have : ∀ l, stripComment (c :: l) = c :: stripComment l := by
      intro l
      rw [stripComment]
      · simp [Ne.symm h.1]
      · rintro a b rfl; exact absurd rfl hq.1
    rw [List.cons_append, this, this, ih h.2 hq.2]

end Sys2Proof.Machine
end

