-- ==== Sys2Proof/Laws/PerInstr.lean ====
section
/-! SUPPORT. Statements about every command as syntax, one lemma per constructor. -/

namespace Sys2Proof.Laws.EncodesWellFormed

/-- The command's word meets the field rules of R47, R48 and R51. -/
def Statement (i : Instr) : Prop := wordWellFormed (encode i) = true

theorem opField_wordOf (op : BitVec 8) (opd : BitVec 16) : opField (wordOf op opd) = op := by
  apply BitVec.eq_of_getLsbD_eq
  intro k hk
  have h24 : 24 + k < 32 := by omega
  have hz : opd.getLsbD (24 + k) = false := BitVec.getLsbD_of_ge _ _ (by omega)
  simp [opField, wordOf, hk, h24, hz]

theorem rsvField_wordOf (op : BitVec 8) (opd : BitVec 16) : rsvField (wordOf op opd) = 0#8 := by
  apply BitVec.eq_of_getLsbD_eq
  intro k hk
  have h : 16 + k < 24 := by omega
  simp [rsvField, wordOf, hk, h]

theorem opdField_wordOf (op : BitVec 8) (opd : BitVec 16) : opdField (wordOf op opd) = opd := by
  apply BitVec.eq_of_getLsbD_eq
  intro k hk
  have h : k < 24 := by omega
  have h' : k < 32 := by omega
  simp [opdField, wordOf, hk, h, h']

/-- What `wordWellFormed` asks of an encoded word. -/
theorem wordWellFormed_wordOf {op : BitVec 8} {f : Form} {opd : BitVec 16} (hf : formOfOp op = some f)
    (ho : f.opdOk opd = true) : wordWellFormed (wordOf op opd) = true := by
  simp [wordWellFormed, opField_wordOf, rsvField_wordOf, opdField_wordOf, hf, ho]

theorem opdOk_byte (d : Byte) : Form.b.opdOk (d.setWidth 16) = true := by
  revert d; decide

theorem opdOk_mask (m : BitVec 3) : Form.m.opdOk (m.setWidth 16) = true := by
  revert m; decide

theorem nop : Statement .nop := wordWellFormed_wordOf rfl rfl
theorem crcInit : Statement .crcInit := wordWellFormed_wordOf rfl rfl
theorem crcByte (d : Byte) : Statement (.crcByte d) := wordWellFormed_wordOf rfl (opdOk_byte d)
theorem crcRead : Statement .crcRead := wordWellFormed_wordOf rfl rfl
theorem crcVerify (k : U16) : Statement (.crcVerify k) := wordWellFormed_wordOf rfl rfl
theorem txStart : Statement .txStart := wordWellFormed_wordOf rfl rfl
theorem txByte (d : Byte) : Statement (.txByte d) := wordWellFormed_wordOf rfl (opdOk_byte d)
theorem txSeq : Statement .txSeq := wordWellFormed_wordOf rfl rfl
theorem txEnd : Statement .txEnd := wordWellFormed_wordOf rfl rfl
theorem rxByte (d : Byte) : Statement (.rxByte d) := wordWellFormed_wordOf rfl (opdOk_byte d)
theorem rxReset : Statement .rxReset := wordWellFormed_wordOf rfl rfl
theorem seqNext : Statement .seqNext := wordWellFormed_wordOf rfl rfl
theorem statusRead : Statement .statusRead := wordWellFormed_wordOf rfl rfl
theorem statusClear (mask : BitVec 3) : Statement (.statusClear mask) :=
  wordWellFormed_wordOf rfl (opdOk_mask mask)

end Sys2Proof.Laws.EncodesWellFormed
end

