-- ==== Sys2Proof/Laws/Decode.lean ====
section
/-! SUPPORT. The decoder as one chain of conditions on the fields of the word. -/

namespace Sys2Proof

/-- Two words are equal if they agree above and below bit `k`. -/
theorem word_eq_of_parts (k : Nat) (hk : k ≤ 32) {x y : Word} (hi : x.extractLsb' k (32 - k) = y.extractLsb' k (32 - k))
    (lo : x.extractLsb' 0 k = y.extractLsb' 0 k) : x = y := by
  apply BitVec.eq_of_getLsbD_eq
  intro i hi32
  by_cases h : i < k
  · have := congrArg (fun v => v.getLsbD i) lo
    simpa [h] using this
  · have := congrArg (fun v => v.getLsbD (i - k)) hi
    have h1 : i - k < 32 - k := by omega
    have h2 : k + (i - k) = i := by omega
    simpa [h1, h2] using this

/-- A mask over bits 31:k compares the fields above bit `k`. -/
theorem and_mask_iff (k : Nat) (hk : k ≤ 32) (mask p w : Word)
    (hm : mask.extractLsb' k (32 - k) = BitVec.allOnes (32 - k)) (hl : mask.extractLsb' 0 k = 0#k)
    (hp : p.extractLsb' 0 k = 0#k) :
    w &&& mask = p ↔ w.extractLsb' k (32 - k) = p.extractLsb' k (32 - k) := by
  constructor
  · rintro rfl
    rw [BitVec.extractLsb'_and, hm, BitVec.and_allOnes]
  · intro h
    apply word_eq_of_parts k hk
    · rw [BitVec.extractLsb'_and, hm, BitVec.and_allOnes, h]
    · rw [BitVec.extractLsb'_and, hl, BitVec.and_zero, hp]

/-- A row of form Z matches its own word only. -/
theorem matches_z (p w : Word) : w &&& 0xFFFFFFFF#32 = p ↔ w = p := by
  have : (0xFFFFFFFF#32 : Word) = BitVec.allOnes 32 := rfl
  rw [this, BitVec.and_allOnes]

/-- A row of form B compares bits 31:8. -/
theorem matches_b (p w : Word) (hp : p.extractLsb' 0 8 = 0#8) :
    w &&& 0xFFFFFF00#32 = p ↔ w.extractLsb' 8 24 = p.extractLsb' 8 24 :=
  and_mask_iff 8 (by decide) _ p w (by decide) (by decide) hp

/-- A row of form H compares bits 31:16. -/
theorem matches_h (p w : Word) (hp : p.extractLsb' 0 16 = 0#16) :
    w &&& 0xFFFF0000#32 = p ↔ w.extractLsb' 16 16 = p.extractLsb' 16 16 :=
  and_mask_iff 16 (by decide) _ p w (by decide) (by decide) hp

/-- A row of form M compares bits 31:3. -/
theorem matches_m (p w : Word) (hp : p.extractLsb' 0 3 = 0#3) :
    w &&& 0xFFFFFFF8#32 = p ↔ w.extractLsb' 3 29 = p.extractLsb' 3 29 :=
  and_mask_iff 3 (by decide) _ p w (by decide) (by decide) hp

/-- A word decodes to a command only through a row that matches it. -/
theorem decodeIn_ok {w : Word} {i : Instr} {rows : List Row} (h : decodeIn w rows = .ok i) :
    ∃ r ∈ rows, w &&& r.mask = r.pattern ∧ i = r.build w := by
  induction rows with
  | nil => cases h
  | cons r rows ih =>
    by_cases hr : w &&& r.mask = r.pattern
    · simp only [decodeIn, hr, if_true, Except.ok.injEq] at h
      exact ⟨r, by simp, hr, h.symm⟩
    · simp only [decodeIn, hr, if_false] at h
      obtain ⟨r', hm, h'⟩ := ih h
      exact ⟨r', by simp [hm], h'⟩

/-- A word decodes to no command exactly if no row matches it, and the reason is `illegalReason`. -/
theorem decodeIn_error_iff {w : Word} {e : IllegalReason} {rows : List Row} :
    decodeIn w rows = .error e ↔ (∀ r ∈ rows, w &&& r.mask ≠ r.pattern) ∧ e = illegalReason w := by
  induction rows with
  | nil => simp [decodeIn, eq_comm]
  | cons r rows ih =>
    by_cases hr : w &&& r.mask = r.pattern
    · simp [decodeIn, hr]
    · simp [decodeIn, hr, ih]

end Sys2Proof
end

