-- ==== Sys2Proof/Laws/State.lean ====
section
/-! SUPPORT. What each named operation does to each field of the state: one lemma per field per operation. -/

namespace Sys2Proof.Machine

variable (s : State)

@[simp] theorem emit_crc (e : Event) : (emit e s).crc = s.crc := rfl
@[simp] theorem emit_txActive (e : Event) : (emit e s).txActive = s.txActive := rfl
@[simp] theorem emit_txCrc (e : Event) : (emit e s).txCrc = s.txCrc := rfl
@[simp] theorem emit_seq (e : Event) : (emit e s).seq = s.seq := rfl
@[simp] theorem emit_rxState (e : Event) : (emit e s).rxState = s.rxState := rfl
@[simp] theorem emit_rxMsg (e : Event) : (emit e s).rxMsg = s.rxMsg := rfl
@[simp] theorem emit_rxCk (e : Event) : (emit e s).rxCk = s.rxCk := rfl
@[simp] theorem emit_cmdErr (e : Event) : (emit e s).cmdErr = s.cmdErr := rfl
@[simp] theorem emit_rxOvf (e : Event) : (emit e s).rxOvf = s.rxOvf := rfl
@[simp] theorem emit_rxShort (e : Event) : (emit e s).rxShort = s.rxShort := rfl
@[simp] theorem emit_rxMaxBody (e : Event) : (emit e s).rxMaxBody = s.rxMaxBody := rfl
@[simp] theorem emit_inputs (e : Event) : (emit e s).inputs = s.inputs := rfl
@[simp] theorem emit_events (e : Event) : (emit e s).events = s.events ++ [e] := rfl

@[simp] theorem emitTx_crc (bs : List Byte) : (emitTx bs s).crc = s.crc := rfl
@[simp] theorem emitTx_txActive (bs : List Byte) : (emitTx bs s).txActive = s.txActive := rfl
@[simp] theorem emitTx_txCrc (bs : List Byte) : (emitTx bs s).txCrc = s.txCrc := rfl
@[simp] theorem emitTx_seq (bs : List Byte) : (emitTx bs s).seq = s.seq := rfl
@[simp] theorem emitTx_rxState (bs : List Byte) : (emitTx bs s).rxState = s.rxState := rfl
@[simp] theorem emitTx_rxMsg (bs : List Byte) : (emitTx bs s).rxMsg = s.rxMsg := rfl
@[simp] theorem emitTx_rxCk (bs : List Byte) : (emitTx bs s).rxCk = s.rxCk := rfl
@[simp] theorem emitTx_cmdErr (bs : List Byte) : (emitTx bs s).cmdErr = s.cmdErr := rfl
@[simp] theorem emitTx_rxOvf (bs : List Byte) : (emitTx bs s).rxOvf = s.rxOvf := rfl
@[simp] theorem emitTx_rxShort (bs : List Byte) : (emitTx bs s).rxShort = s.rxShort := rfl
@[simp] theorem emitTx_rxMaxBody (bs : List Byte) : (emitTx bs s).rxMaxBody = s.rxMaxBody := rfl
@[simp] theorem emitTx_inputs (bs : List Byte) : (emitTx bs s).inputs = s.inputs := rfl
@[simp] theorem emitTx_events (bs : List Byte) : (emitTx bs s).events = s.events ++ bs.map Event.txByte := rfl

@[simp] theorem emitResult_crc (v : U16) : (emitResult v s).crc = s.crc := rfl
@[simp] theorem emitResult_txActive (v : U16) : (emitResult v s).txActive = s.txActive := rfl
@[simp] theorem emitResult_txCrc (v : U16) : (emitResult v s).txCrc = s.txCrc := rfl
@[simp] theorem emitResult_seq (v : U16) : (emitResult v s).seq = s.seq := rfl
@[simp] theorem emitResult_rxState (v : U16) : (emitResult v s).rxState = s.rxState := rfl
@[simp] theorem emitResult_rxMsg (v : U16) : (emitResult v s).rxMsg = s.rxMsg := rfl
@[simp] theorem emitResult_rxCk (v : U16) : (emitResult v s).rxCk = s.rxCk := rfl
@[simp] theorem emitResult_cmdErr (v : U16) : (emitResult v s).cmdErr = s.cmdErr := rfl
@[simp] theorem emitResult_rxOvf (v : U16) : (emitResult v s).rxOvf = s.rxOvf := rfl
@[simp] theorem emitResult_rxShort (v : U16) : (emitResult v s).rxShort = s.rxShort := rfl
@[simp] theorem emitResult_rxMaxBody (v : U16) : (emitResult v s).rxMaxBody = s.rxMaxBody := rfl
@[simp] theorem emitResult_inputs (v : U16) : (emitResult v s).inputs = s.inputs := rfl
@[simp] theorem emitResult_events (v : U16) : (emitResult v s).events = s.events ++ [.result v] := rfl

@[simp] theorem emitDeliver_crc (m : Message) : (emitDeliver m s).crc = s.crc := rfl
@[simp] theorem emitDeliver_txActive (m : Message) : (emitDeliver m s).txActive = s.txActive := rfl
@[simp] theorem emitDeliver_txCrc (m : Message) : (emitDeliver m s).txCrc = s.txCrc := rfl
@[simp] theorem emitDeliver_seq (m : Message) : (emitDeliver m s).seq = s.seq := rfl
@[simp] theorem emitDeliver_rxState (m : Message) : (emitDeliver m s).rxState = s.rxState := rfl
@[simp] theorem emitDeliver_rxMsg (m : Message) : (emitDeliver m s).rxMsg = s.rxMsg := rfl
@[simp] theorem emitDeliver_rxCk (m : Message) : (emitDeliver m s).rxCk = s.rxCk := rfl
@[simp] theorem emitDeliver_cmdErr (m : Message) : (emitDeliver m s).cmdErr = s.cmdErr := rfl
@[simp] theorem emitDeliver_rxOvf (m : Message) : (emitDeliver m s).rxOvf = s.rxOvf := rfl
@[simp] theorem emitDeliver_rxShort (m : Message) : (emitDeliver m s).rxShort = s.rxShort := rfl
@[simp] theorem emitDeliver_rxMaxBody (m : Message) : (emitDeliver m s).rxMaxBody = s.rxMaxBody := rfl
@[simp] theorem emitDeliver_inputs (m : Message) : (emitDeliver m s).inputs = s.inputs := rfl
@[simp] theorem emitDeliver_events (m : Message) : (emitDeliver m s).events = s.events ++ [.deliver m] := rfl

@[simp] theorem setCmdErr_crc : (setCmdErr s).crc = s.crc := rfl
@[simp] theorem setCmdErr_txActive : (setCmdErr s).txActive = s.txActive := rfl
@[simp] theorem setCmdErr_txCrc : (setCmdErr s).txCrc = s.txCrc := rfl
@[simp] theorem setCmdErr_seq : (setCmdErr s).seq = s.seq := rfl
@[simp] theorem setCmdErr_rxState : (setCmdErr s).rxState = s.rxState := rfl
@[simp] theorem setCmdErr_rxMsg : (setCmdErr s).rxMsg = s.rxMsg := rfl
@[simp] theorem setCmdErr_rxCk : (setCmdErr s).rxCk = s.rxCk := rfl
@[simp] theorem setCmdErr_cmdErr : (setCmdErr s).cmdErr = true := rfl
@[simp] theorem setCmdErr_rxOvf : (setCmdErr s).rxOvf = s.rxOvf := rfl
@[simp] theorem setCmdErr_rxShort : (setCmdErr s).rxShort = s.rxShort := rfl
@[simp] theorem setCmdErr_rxMaxBody : (setCmdErr s).rxMaxBody = s.rxMaxBody := rfl
@[simp] theorem setCmdErr_inputs : (setCmdErr s).inputs = s.inputs := rfl
@[simp] theorem setCmdErr_events : (setCmdErr s).events = s.events := rfl

@[simp] theorem setRxOvf_crc : (setRxOvf s).crc = s.crc := rfl
@[simp] theorem setRxOvf_txActive : (setRxOvf s).txActive = s.txActive := rfl
@[simp] theorem setRxOvf_txCrc : (setRxOvf s).txCrc = s.txCrc := rfl
@[simp] theorem setRxOvf_seq : (setRxOvf s).seq = s.seq := rfl
@[simp] theorem setRxOvf_rxState : (setRxOvf s).rxState = s.rxState := rfl
@[simp] theorem setRxOvf_rxMsg : (setRxOvf s).rxMsg = s.rxMsg := rfl
@[simp] theorem setRxOvf_rxCk : (setRxOvf s).rxCk = s.rxCk := rfl
@[simp] theorem setRxOvf_cmdErr : (setRxOvf s).cmdErr = s.cmdErr := rfl
@[simp] theorem setRxOvf_rxOvf : (setRxOvf s).rxOvf = true := rfl
@[simp] theorem setRxOvf_rxShort : (setRxOvf s).rxShort = s.rxShort := rfl
@[simp] theorem setRxOvf_rxMaxBody : (setRxOvf s).rxMaxBody = s.rxMaxBody := rfl
@[simp] theorem setRxOvf_inputs : (setRxOvf s).inputs = s.inputs := rfl
@[simp] theorem setRxOvf_events : (setRxOvf s).events = s.events := rfl

@[simp] theorem setRxShort_crc : (setRxShort s).crc = s.crc := rfl
@[simp] theorem setRxShort_txActive : (setRxShort s).txActive = s.txActive := rfl
@[simp] theorem setRxShort_txCrc : (setRxShort s).txCrc = s.txCrc := rfl
@[simp] theorem setRxShort_seq : (setRxShort s).seq = s.seq := rfl
@[simp] theorem setRxShort_rxState : (setRxShort s).rxState = s.rxState := rfl
@[simp] theorem setRxShort_rxMsg : (setRxShort s).rxMsg = s.rxMsg := rfl
@[simp] theorem setRxShort_rxCk : (setRxShort s).rxCk = s.rxCk := rfl
@[simp] theorem setRxShort_cmdErr : (setRxShort s).cmdErr = s.cmdErr := rfl
@[simp] theorem setRxShort_rxOvf : (setRxShort s).rxOvf = s.rxOvf := rfl
@[simp] theorem setRxShort_rxShort : (setRxShort s).rxShort = true := rfl
@[simp] theorem setRxShort_rxMaxBody : (setRxShort s).rxMaxBody = s.rxMaxBody := rfl
@[simp] theorem setRxShort_inputs : (setRxShort s).inputs = s.inputs := rfl
@[simp] theorem setRxShort_events : (setRxShort s).events = s.events := rfl

@[simp] theorem illegalCommand_crc : (illegalCommand s).crc = s.crc := rfl
@[simp] theorem illegalCommand_txActive : (illegalCommand s).txActive = s.txActive := rfl
@[simp] theorem illegalCommand_txCrc : (illegalCommand s).txCrc = s.txCrc := rfl
@[simp] theorem illegalCommand_seq : (illegalCommand s).seq = s.seq := rfl
@[simp] theorem illegalCommand_rxState : (illegalCommand s).rxState = s.rxState := rfl
@[simp] theorem illegalCommand_rxMsg : (illegalCommand s).rxMsg = s.rxMsg := rfl
@[simp] theorem illegalCommand_rxCk : (illegalCommand s).rxCk = s.rxCk := rfl
@[simp] theorem illegalCommand_cmdErr : (illegalCommand s).cmdErr = true := rfl
@[simp] theorem illegalCommand_rxOvf : (illegalCommand s).rxOvf = s.rxOvf := rfl
@[simp] theorem illegalCommand_rxShort : (illegalCommand s).rxShort = s.rxShort := rfl
@[simp] theorem illegalCommand_rxMaxBody : (illegalCommand s).rxMaxBody = s.rxMaxBody := rfl
@[simp] theorem illegalCommand_inputs : (illegalCommand s).inputs = s.inputs := rfl
@[simp] theorem illegalCommand_events : (illegalCommand s).events = s.events := rfl

@[simp] theorem clearSticky_crc (mask : BitVec 3) : (clearSticky mask s).crc = s.crc := rfl
@[simp] theorem clearSticky_txActive (mask : BitVec 3) : (clearSticky mask s).txActive = s.txActive := rfl
@[simp] theorem clearSticky_txCrc (mask : BitVec 3) : (clearSticky mask s).txCrc = s.txCrc := rfl
@[simp] theorem clearSticky_seq (mask : BitVec 3) : (clearSticky mask s).seq = s.seq := rfl
@[simp] theorem clearSticky_rxState (mask : BitVec 3) : (clearSticky mask s).rxState = s.rxState := rfl
@[simp] theorem clearSticky_rxMsg (mask : BitVec 3) : (clearSticky mask s).rxMsg = s.rxMsg := rfl
@[simp] theorem clearSticky_rxCk (mask : BitVec 3) : (clearSticky mask s).rxCk = s.rxCk := rfl
@[simp] theorem clearSticky_cmdErr (mask : BitVec 3) :
    (clearSticky mask s).cmdErr = if maskCmdErr mask then false else s.cmdErr := rfl
@[simp] theorem clearSticky_rxOvf (mask : BitVec 3) :
    (clearSticky mask s).rxOvf = if maskRxOvf mask then false else s.rxOvf := rfl
@[simp] theorem clearSticky_rxShort (mask : BitVec 3) :
    (clearSticky mask s).rxShort = if maskRxShort mask then false else s.rxShort := rfl
@[simp] theorem clearSticky_rxMaxBody (mask : BitVec 3) : (clearSticky mask s).rxMaxBody = s.rxMaxBody := rfl
@[simp] theorem clearSticky_inputs (mask : BitVec 3) : (clearSticky mask s).inputs = s.inputs := rfl
@[simp] theorem clearSticky_events (mask : BitVec 3) : (clearSticky mask s).events = s.events := rfl

@[simp] theorem hardReset_crc : (hardReset s).crc = crcInitValue := rfl
@[simp] theorem hardReset_txActive : (hardReset s).txActive = false := rfl
@[simp] theorem hardReset_txCrc : (hardReset s).txCrc = crcInitValue := rfl
@[simp] theorem hardReset_seq : (hardReset s).seq = 0#8 := rfl
@[simp] theorem hardReset_rxState : (hardReset s).rxState = RxState.idle := rfl
@[simp] theorem hardReset_rxMsg : (hardReset s).rxMsg = [] := rfl
@[simp] theorem hardReset_rxCk : (hardReset s).rxCk = [] := rfl
@[simp] theorem hardReset_cmdErr : (hardReset s).cmdErr = false := rfl
@[simp] theorem hardReset_rxOvf : (hardReset s).rxOvf = false := rfl
@[simp] theorem hardReset_rxShort : (hardReset s).rxShort = false := rfl
@[simp] theorem hardReset_rxMaxBody : (hardReset s).rxMaxBody = s.rxMaxBody := rfl
@[simp] theorem hardReset_inputs : (hardReset s).inputs = s.inputs := rfl
@[simp] theorem hardReset_events : (hardReset s).events = s.events := rfl

@[simp] theorem toIdle_crc : (toIdle s).crc = s.crc := rfl
@[simp] theorem toIdle_txActive : (toIdle s).txActive = s.txActive := rfl
@[simp] theorem toIdle_txCrc : (toIdle s).txCrc = s.txCrc := rfl
@[simp] theorem toIdle_seq : (toIdle s).seq = s.seq := rfl
@[simp] theorem toIdle_rxState : (toIdle s).rxState = RxState.idle := rfl
@[simp] theorem toIdle_rxMsg : (toIdle s).rxMsg = [] := rfl
@[simp] theorem toIdle_rxCk : (toIdle s).rxCk = [] := rfl
@[simp] theorem toIdle_cmdErr : (toIdle s).cmdErr = s.cmdErr := rfl
@[simp] theorem toIdle_rxOvf : (toIdle s).rxOvf = s.rxOvf := rfl
@[simp] theorem toIdle_rxShort : (toIdle s).rxShort = s.rxShort := rfl
@[simp] theorem toIdle_rxMaxBody : (toIdle s).rxMaxBody = s.rxMaxBody := rfl
@[simp] theorem toIdle_inputs : (toIdle s).inputs = s.inputs := rfl
@[simp] theorem toIdle_events : (toIdle s).events = s.events := rfl

@[simp] theorem seqTake_snd_crc : (seqTake s).2.crc = s.crc := rfl
@[simp] theorem seqTake_snd_txActive : (seqTake s).2.txActive = s.txActive := rfl
@[simp] theorem seqTake_snd_txCrc : (seqTake s).2.txCrc = s.txCrc := rfl
@[simp] theorem seqTake_snd_seq : (seqTake s).2.seq = BitVec.ofNat 8 ((s.seq.toNat + 1) % seqModulus) := rfl
@[simp] theorem seqTake_snd_rxState : (seqTake s).2.rxState = s.rxState := rfl
@[simp] theorem seqTake_snd_rxMsg : (seqTake s).2.rxMsg = s.rxMsg := rfl
@[simp] theorem seqTake_snd_rxCk : (seqTake s).2.rxCk = s.rxCk := rfl
@[simp] theorem seqTake_snd_cmdErr : (seqTake s).2.cmdErr = s.cmdErr := rfl
@[simp] theorem seqTake_snd_rxOvf : (seqTake s).2.rxOvf = s.rxOvf := rfl
@[simp] theorem seqTake_snd_rxShort : (seqTake s).2.rxShort = s.rxShort := rfl
@[simp] theorem seqTake_snd_rxMaxBody : (seqTake s).2.rxMaxBody = s.rxMaxBody := rfl
@[simp] theorem seqTake_snd_inputs : (seqTake s).2.inputs = s.inputs := rfl
@[simp] theorem seqTake_snd_events : (seqTake s).2.events = s.events := rfl

@[simp] theorem txBodyByte_crc (d : Byte) : (txBodyByte d s).crc = s.crc := rfl
@[simp] theorem txBodyByte_txActive (d : Byte) : (txBodyByte d s).txActive = s.txActive := rfl
@[simp] theorem txBodyByte_txCrc (d : Byte) : (txBodyByte d s).txCrc = crcStep s.txCrc d := rfl
@[simp] theorem txBodyByte_seq (d : Byte) : (txBodyByte d s).seq = s.seq := rfl
@[simp] theorem txBodyByte_rxState (d : Byte) : (txBodyByte d s).rxState = s.rxState := rfl
@[simp] theorem txBodyByte_rxMsg (d : Byte) : (txBodyByte d s).rxMsg = s.rxMsg := rfl
@[simp] theorem txBodyByte_rxCk (d : Byte) : (txBodyByte d s).rxCk = s.rxCk := rfl
@[simp] theorem txBodyByte_cmdErr (d : Byte) : (txBodyByte d s).cmdErr = s.cmdErr := rfl
@[simp] theorem txBodyByte_rxOvf (d : Byte) : (txBodyByte d s).rxOvf = s.rxOvf := rfl
@[simp] theorem txBodyByte_rxShort (d : Byte) : (txBodyByte d s).rxShort = s.rxShort := rfl
@[simp] theorem txBodyByte_rxMaxBody (d : Byte) : (txBodyByte d s).rxMaxBody = s.rxMaxBody := rfl
@[simp] theorem txBodyByte_inputs (d : Byte) : (txBodyByte d s).inputs = s.inputs := rfl
@[simp] theorem txBodyByte_events (d : Byte) :
    (txBodyByte d s).events = s.events ++ (if d = esc then [d, esc] else [d]).map Event.txByte := rfl

@[simp] theorem seqTake_fst : (seqTake s).1 = s.seq := rfl

end Sys2Proof.Machine
end

