-- ==== Sys2Proof/Laws/Ops.lean ====
section
/-! SUPPORT. One lemma per shared operation and byte function that says what it can do, for proofs to cite. -/

namespace Sys2Proof.Machine

/-! ### Inputs and steps -/

theorem takeInput_nil {s : State} (h : s.inputs = []) : takeInput s = none := by
  simp [takeInput, h]

theorem takeInput_cons {s : State} {x : Input} {rest : List Input} (h : s.inputs = x :: rest) :
    takeInput s = some (x, { s with inputs := rest }) := by
  simp [takeInput, h]

/-- Every step is one of four: nothing issued, a command, an illegal word, a reset. -/
theorem step_cases (s : State) :
    (s.inputs = [] ∧ step s = .next s) ∨
    (∃ w rest i, s.inputs = .command w :: rest ∧ decode w = .ok i ∧ step s = exec i { s with inputs := rest }) ∨
    (∃ w rest e, s.inputs = .command w :: rest ∧ decode w = .error e ∧
      step s = .next (illegalCommand { s with inputs := rest })) ∨
    (∃ rest, s.inputs = .reset :: rest ∧ step s = .next (hardReset { s with inputs := rest })) := by
  cases h : s.inputs with
  | nil => exact .inl ⟨rfl, by simp [step, takeInput_nil h]⟩
  | cons x rest =>
    cases x with
    | reset => exact .inr (.inr (.inr ⟨rest, rfl, by simp [step, takeInput_cons h]⟩))
    | command w =>
      cases hd : decode w with
      | ok i => exact .inr (.inl ⟨w, rest, i, rfl, hd, by simp [step, takeInput_cons h, stepWord, hd]⟩)
      | error e => exact .inr (.inr (.inl ⟨w, rest, e, rfl, hd, by simp [step, takeInput_cons h, stepWord, hd]⟩))

theorem execAll_cons_next {i : Instr} {is : List Instr} {s t : State} (h : exec i s = .next t) :
    execAll (i :: is) s = execAll is t := by
  simp [execAll, h]

theorem execAll_append {as bs : List Instr} {s t : State} (h : execAll as s = .next t) :
    execAll (as ++ bs) s = execAll bs t := by
  induction as generalizing s with
  | nil => cases h; rfl
  | cons a as ih =>
    simp only [execAll, List.cons_append] at h ⊢
    split at h
    · exact ih h
    · cases h
    · cases h

/-! ### Channels of the observation -/

@[simp] theorem txBytes_nil : txBytes [] = [] := rfl
@[simp] theorem txBytes_append (as bs : List Event) : txBytes (as ++ bs) = txBytes as ++ txBytes bs := by
  simp [txBytes]
@[simp] theorem txBytes_txByte (b : Byte) (es : List Event) : txBytes (.txByte b :: es) = b :: txBytes es := rfl
@[simp] theorem txBytes_deliver (m : Message) (es : List Event) : txBytes (.deliver m :: es) = txBytes es := rfl
@[simp] theorem txBytes_result (v : U16) (es : List Event) : txBytes (.result v :: es) = txBytes es := rfl
@[simp] theorem txBytes_map (bs : List Byte) : txBytes (bs.map Event.txByte) = bs := by
  induction bs <;> simp_all

@[simp] theorem deliveries_nil : deliveries [] = [] := rfl
@[simp] theorem deliveries_append (as bs : List Event) :
    deliveries (as ++ bs) = deliveries as ++ deliveries bs := by
  simp [deliveries]
@[simp] theorem deliveries_txByte (b : Byte) (es : List Event) : deliveries (.txByte b :: es) = deliveries es := rfl
@[simp] theorem deliveries_deliver (m : Message) (es : List Event) :
    deliveries (.deliver m :: es) = m :: deliveries es := rfl
@[simp] theorem deliveries_result (v : U16) (es : List Event) : deliveries (.result v :: es) = deliveries es := rfl
@[simp] theorem deliveries_map (bs : List Byte) : deliveries (bs.map Event.txByte) = [] := by
  induction bs <;> simp_all

@[simp] theorem results_nil : results [] = [] := rfl
@[simp] theorem results_append (as bs : List Event) : results (as ++ bs) = results as ++ results bs := by
  simp [results]
@[simp] theorem results_txByte (b : Byte) (es : List Event) : results (.txByte b :: es) = results es := rfl
@[simp] theorem results_deliver (m : Message) (es : List Event) : results (.deliver m :: es) = results es := rfl
@[simp] theorem results_result (v : U16) (es : List Event) : results (.result v :: es) = v :: results es := rfl
@[simp] theorem results_map (bs : List Byte) : results (bs.map Event.txByte) = [] := by
  induction bs <;> simp_all

/-! ### The CRC -/

@[simp] theorem crcFold_nil (c : U16) : crcFold c [] = c := rfl
@[simp] theorem crcFold_cons (c : U16) (b : Byte) (xs : List Byte) :
    crcFold c (b :: xs) = crcFold (crcStep c b) xs := rfl
/-- Continuation (R58). -/
theorem crcFold_append (c : U16) (xs ys : List Byte) : crcFold c (xs ++ ys) = crcFold (crcFold c xs) ys := by
  simp [crcFold]
/-- There is no final XOR (R5, R56). -/
theorem crc_xorOut_neutral (c : U16) : c ^^^ crcXorOut = c := by
  simp [crcXorOut]

/-! ### Stuffing and unpacking -/

@[simp] theorem stuff_nil : stuff [] = [] := rfl
theorem stuff_esc (xs : List Byte) : stuff (esc :: xs) = esc :: esc :: stuff xs := by
  simp [stuff]
theorem stuff_other {b : Byte} (h : b ≠ esc) (xs : List Byte) : stuff (b :: xs) = b :: stuff xs := by
  simp [stuff, h]
theorem stuff_append (xs ys : List Byte) : stuff (xs ++ ys) = stuff xs ++ stuff ys := by
  induction xs with
  | nil => rfl
  | cons b xs ih => by_cases h : b = esc <;> simp [stuff, h, ih]

/-- `unpack` is defined exactly for bodies that hold a header (R88). -/
theorem unpack_isSome (body : List Byte) : (unpack body).isSome = decide (headerLen ≤ body.length) := by
  match body with
  | [] => rfl
  | [_] => rfl
  | [_, _] => rfl
  | [_, _, _] => rfl
  | _ :: _ :: _ :: _ :: _ => simp [unpack, headerLen]

theorem unpack_short {body : List Byte} (h : body.length < headerLen) : unpack body = none := by
  have := unpack_isSome body
  cases hu : unpack body with
  | none => rfl
  | some m => simp [hu] at this; omega

/-! ### The receive side -/

/-- All that `append` can do (R79). -/
theorem rxAppend_cases (b : Byte) (s : State) :
    (s.rxMsg.length = s.rxMaxBody ∧ rxAppend b s = (false, toIdle (setRxOvf s))) ∨
    (s.rxMsg.length ≠ s.rxMaxBody ∧ rxAppend b s = (true, { s with rxMsg := s.rxMsg ++ [b] })) := by
  by_cases h : s.rxMsg.length = s.rxMaxBody <;> simp [rxAppend, h]

theorem rxAdvance_idle {s : State} (h : s.rxState = .idle) (d : Byte) : rxAdvance d s = rxIdle d s := by
  simp [rxAdvance, h]
theorem rxAdvance_waitStart {s : State} (h : s.rxState = .waitStart) (d : Byte) :
    rxAdvance d s = rxWaitStart d s := by
  simp [rxAdvance, h]
theorem rxAdvance_message {s : State} (h : s.rxState = .message) (d : Byte) : rxAdvance d s = rxMessage d s := by
  simp [rxAdvance, h]
theorem rxAdvance_messageEscape {s : State} (h : s.rxState = .messageEscape) (d : Byte) :
    rxAdvance d s = rxMessageEscape d s := by
  simp [rxAdvance, h]
theorem rxAdvance_checksum1 {s : State} (h : s.rxState = .checksum1) (d : Byte) :
    rxAdvance d s = rxChecksum1 d s := by
  simp [rxAdvance, h]
theorem rxAdvance_checksum2 {s : State} (h : s.rxState = .checksum2) (d : Byte) :
    rxAdvance d s = rxChecksum2 d s := by
  simp [rxAdvance, h]

end Sys2Proof.Machine
end

