-- ==== Sys2Proof/Tests/Slice0.lean ====
section
/-! SUPPORT. The model's own tests: smoke tests of the field checks, words written out bit by bit from R49, one-step
tests from the vectors of 95_test_vectors.md, and a witness for the hypotheses of each statement. -/

namespace Sys2Proof.Tests

open Sys2Proof.Machine

/-- The reset state with a capacity of six bytes. -/
def s0 : State := { State.reset with rxMaxBody := 6 }

/-- A state of the receive side with the given buffers. -/
def rx (r : RxState) (msg ck : List Byte) : State := { s0 with rxState := r, rxMsg := msg, rxCk := ck }

/-- A state with a transmit frame open. -/
def txOpen : State := { s0 with txActive := true }

/-- The next state of an outcome. -/
def after (o : StepOutcome) : Option State :=
  match o with
  | .next t => some t
  | .fault _ => none
  | .refused _ => none

/-- A state whose next inputs are the given words. -/
def issuing (ws : List Word) : State := { s0 with inputs := ws.map Input.command }

/-! ### Smoke tests: an ill-formed term for each check (R48, R51, R54) -/

theorem test_wf_unassigned_opcode : wordWellFormed 0x05000000#32 = false := by decide
theorem test_wf_reserved_bits : wordWellFormed 0x00010000#32 = false := by decide
theorem test_wf_form_z : wordWellFormed 0x00000001#32 = false := by decide
theorem test_wf_form_b : wordWellFormed 0x02000100#32 = false := by decide
theorem test_wf_form_m : wordWellFormed 0x41000008#32 = false := by decide
theorem test_wf_good_words : wordWellFormed 0x020000FF#32 ∧ wordWellFormed 0x0400FFFF#32 ∧
    wordWellFormed 0x41000007#32 := by decide
theorem test_accepts_refuses : Form.z.accepts (some 0) = false ∧ Form.b.accepts none = false ∧
    Form.b.accepts (some 256) = false ∧ Form.h.accepts (some 65536) = false ∧ Form.m.accepts (some 8) = false := by
  decide

/-! ### Decoding: words written out bit by bit from R49 -/

theorem test_decode_nop : decode 0b00000000000000000000000000000000#32 = .ok .nop := by decide
theorem test_decode_crcInit : decode 0b00000001000000000000000000000000#32 = .ok .crcInit := by decide
theorem test_decode_crcByte : decode 0b00000010000000000000000000110001#32 = .ok (.crcByte 0x31#8) := by decide
theorem test_decode_crcRead : decode 0b00000011000000000000000000000000#32 = .ok .crcRead := by decide
theorem test_decode_crcVerify : decode 0b00000100000000000110111110010001#32 = .ok (.crcVerify 0x6F91#16) := by decide
theorem test_decode_txStart : decode 0b00010000000000000000000000000000#32 = .ok .txStart := by decide
theorem test_decode_txByte : decode 0b00010001000000000000000000010101#32 = .ok (.txByte 0x15#8) := by decide
theorem test_decode_txSeq : decode 0b00010010000000000000000000000000#32 = .ok .txSeq := by decide
theorem test_decode_txEnd : decode 0b00010011000000000000000000000000#32 = .ok .txEnd := by decide
theorem test_decode_rxByte : decode 0b00100000000000000000000010010110#32 = .ok (.rxByte 0x96#8) := by decide
theorem test_decode_rxReset : decode 0b00100001000000000000000000000000#32 = .ok .rxReset := by decide
theorem test_decode_seqNext : decode 0b00110000000000000000000000000000#32 = .ok .seqNext := by decide
theorem test_decode_statusRead : decode 0b01000000000000000000000000000000#32 = .ok .statusRead := by decide
theorem test_decode_statusClear : decode 0b01000001000000000000000000000101#32 = .ok (.statusClear 5#3) := by decide
/-- V-CTL-2, with the class of R51 each word falls in. -/
theorem test_decode_illegal : decode 0x00000001#32 = .error .operandBreaksForm ∧
    decode 0x04010000#32 = .error .reservedNotZero ∧ decode 0x20000100#32 = .error .operandBreaksForm ∧
    decode 0x41000008#32 = .error .operandBreaksForm ∧ decode 0xFF000000#32 = .error .unassignedOpcode := by decide
theorem test_table_word : decodeTableWord 32 0x11000055 = some (.txByte 0x55#8) := by decide

/-! ### One step per command, from the vectors of 95_test_vectors.md -/

/-- V-CTL-4. -/
theorem test_nop : after (exec .nop txOpen) = some txOpen := by decide
/-- R62's example. -/
theorem test_crcInit : after (exec .crcInit { s0 with crc := 0x6F91#16 }) = some s0 := by decide
/-- V-CRC-2, first row, and V-CRC-1. -/
theorem test_crcByte : after (exec (.crcByte 0x31#8) s0) = some { s0 with crc := 0x2F8D#16 } := by decide
theorem test_crcByte_last :
    after (exec (.crcByte 0x39#8) { s0 with crc := 0xF795#16 }) = some { s0 with crc := 0x6F91#16 } := by decide
/-- W1. -/
theorem test_crcRead : after (exec .crcRead s0) = some { s0 with events := [.result 0xFFFF#16] } := by decide
/-- V-CRC-4, rows 1 and 2. -/
theorem test_crcVerify : (after (exec (.crcVerify 0x6F91#16) { s0 with crc := 0x6F91#16 })).map State.events =
    some [.result 0x0001#16] := by decide
theorem test_crcVerify_swapped : (after (exec (.crcVerify 0x916F#16) { s0 with crc := 0x6F91#16 })).map State.events =
    some [.result 0x0000#16] := by decide
/-- V-TX-1, and V-TX-7, last row. -/
theorem test_txStart : after (exec .txStart s0) =
    some { txOpen with events := [.txByte 0x10#8, .txByte 0x02#8] } := by decide
theorem test_txStart_open : after (exec .txStart txOpen) = some { txOpen with cmdErr := true } := by decide
/-- P2, the line TX_BYTE 0x10; V-TX-7, first row. -/
theorem test_txByte_esc : after (exec (.txByte 0x10#8) { txOpen with txCrc := 0xC5B7#16 }) =
    some { txOpen with txCrc := 0xD170#16, events := [.txByte 0x10#8, .txByte 0x10#8] } := by decide
theorem test_txByte_closed : after (exec (.txByte 0x55#8) s0) = some { s0 with cmdErr := true } := by decide
/-- V-SEQ-3, the line TX_SEQ; V-SEQ-4. -/
theorem test_txSeq_esc : (after (exec .txSeq { txOpen with seq := 0x10#8 })).map (fun t => (t.seq, t.events)) =
    some (0x11#8, [.txByte 0x10#8, .txByte 0x10#8]) := by decide
theorem test_txSeq_closed : after (exec .txSeq s0) = some { s0 with cmdErr := true } := by decide
/-- V-TX-2, the last line. -/
theorem test_txEnd : after (exec .txEnd { txOpen with txCrc := 0x0321#16 }) =
    some { s0 with txCrc := 0xAF7A#16,
                   events := [.txByte 0x10#8, .txByte 0x03#8, .txByte 0xAF#8, .txByte 0x7A#8] } := by decide +kernel
/-- V-RX-6 with RX_MAX_BODY = 6: the seventh byte aborts. -/
theorem test_rxByte_overflow :
    after (exec (.rxByte 0xCC#8) (rx .message [1#8, 2#8, 3#8, 4#8, 0xAA#8, 0xBB#8] [])) =
      some { s0 with rxOvf := true } := by decide
/-- V-RX-1, the last byte of f2. -/
theorem test_rxByte_deliver :
    after (exec (.rxByte 0x78#8) (rx .checksum2 [1#8, 2#8, 3#8, 4#8, 0x55#8] [0x96#8])) =
      some { s0 with events := [.deliver ⟨1#8, 2#8, 3#8, 4, [0x55#8]⟩] } := by decide +kernel
/-- V-RX-14, the RX_RESET. -/
theorem test_rxReset : after (exec .rxReset (rx .message [1#8, 2#8] [])) = some s0 := by decide
/-- V-SEQ-2. -/
theorem test_seqNext_wrap : after (exec .seqNext { s0 with seq := 255#8 }) =
    some { s0 with events := [.result 0x00FF#16] } := by decide
/-- V-CTL-1, last row. -/
theorem test_statusRead : statusWord { rx .checksum2 [] [1#8] with
    cmdErr := true, rxOvf := true, rxShort := true, txActive := true } = 0x0D07#16 := by decide
/-- V-CTL-3, first row. -/
theorem test_statusClear : after (exec (.statusClear 1#3) { s0 with cmdErr := true, rxOvf := true }) =
    some { s0 with rxOvf := true } := by decide
/-- V-CRC-5, last row, through the fetch. -/
theorem test_step_illegal : after (step (s0.withFetchWord 32 0x05000000)) = some { s0 with cmdErr := true } := by decide
/-- V-CTL-5. -/
theorem test_step_reset :
    after (step { txOpen with seq := 9#8, inputs := [.reset], events := [.txByte 0x10#8] }) =
      some { s0 with events := [.txByte 0x10#8] } := by decide

/-! ### Byte functions and the assembler -/

/-- V-TX-6, first frame: CRC-lo is 0x10, sent once. -/
theorem test_pack : pack [0x1C#8] 1#8 2#8 3#8 4#8 =
    [0x10#8, 0x02#8, 1#8, 2#8, 3#8, 4#8, 0x1C#8, 0x10#8, 0x03#8, 0x0C#8, 0x10#8] := by decide +kernel
/-- W2 and V-RX-4. -/
theorem test_s8 : s8 0xC8#8 = -56 ∧ s8 0x80#8 = -128 ∧ s8 0x7F#8 = 127 := by decide
/-- R54's operand forms. -/
theorem test_assemble_flags :
    assembleLine "STATUS_CLEAR CMD_ERR | RX_SHORT ; two bits".toList = .ok (some 0x41000005#32) := by decide
theorem test_assemble_hex : assembleLine "  CRC_VERIFY 0x6F91".toList = .ok (some 0x04006F91#32) := by decide
theorem test_assemble_decimal : assembleLine "TX_BYTE 65".toList = .ok (some 0x11000041#32) := by decide
theorem test_assemble_rejects : assembleLine "TX_BYTE 256".toList = .error .badOperand := by decide

/-! ### Witnesses: a state and operands that meet the hypotheses of each statement, clause by clause -/

theorem test_witness_LegalWordsAreEncodings : decode 0x0400FFFF#32 = .ok (.crcVerify 0xFFFF#16) := by decide
theorem test_witness_DecodeByMatchingRow :
    (∃ r ∈ decodeTable, 0x020000FF#32 &&& r.mask = r.pattern) ∧
    (∀ r ∈ decodeTable, 0x02000100#32 &&& r.mask ≠ r.pattern) := by decide
/-- Both ends of each unassigned range and their legal neighbours (R51). -/
theorem test_witness_IllegalWordsExactly :
    (∀ op ∈ [0x05#8, 0x0F#8, 0x14#8, 0x1F#8, 0x22#8, 0x2F#8, 0x31#8, 0x3F#8, 0x42#8, 0xFF#8],
      decode (wordOf op 0#16) = .error .unassignedOpcode) ∧
    (∀ op ∈ [0x04#8, 0x10#8, 0x13#8, 0x20#8, 0x21#8, 0x30#8, 0x40#8, 0x41#8],
      (decode (wordOf op 0#16)).toOption.isSome) ∧
    decode 0x00010000#32 = .error .reservedNotZero ∧ s0.cmdErr = false := by decide
theorem test_witness_StepRunsDecodedCommand : (issuing [0x30000000#32]).inputs = .command 0x30000000#32 :: [] ∧
    decode 0x30000000#32 = .ok .seqNext := by decide
theorem test_witness_StepWithoutInput : s0.inputs = [] := by decide
theorem test_witness_StepKeepsInvariant :
    (rx .checksum2 [1#8, 2#8] [3#8]).Inv ∧ (rx .message [1#8, 2#8, 3#8, 4#8, 5#8, 6#8] []).Inv ∧
    (∃ t, step { rx .message [1#8, 2#8, 3#8, 4#8, 5#8, 6#8] [] with inputs := [.command 0x20000007#32] } =
      .next t) := ⟨by decide, by decide, _, rfl⟩
theorem test_witness_ResetValues : ({ s0 with inputs := [.reset] } : State).inputs = .reset :: [] := by decide
theorem test_witness_ResetForgetsTheRun :
    ({ txOpen with inputs := [.reset] } : State).inputs = .reset :: [] ∧
    ({ rx .message [1#8] [] with inputs := [.reset] } : State).inputs = .reset :: [] ∧
    txOpen.rxMaxBody = (rx .message [1#8] []).rxMaxBody ∧ txOpen.events = (rx .message [1#8] []).events := by decide
theorem test_witness_StepFrame : ∃ t, step (issuing [0x40000000#32]) = .next t := ⟨_, rfl⟩
theorem test_witness_RunIsCommandSequence :
    (issuing [0x10000000#32, 0x13000000#32]).inputs =
      ([Instr.txStart, Instr.txEnd].map fun i => Input.command (encode i)) ++ [] := by decide
theorem test_witness_IllegalCommandEffect : decode 0x05000000#32 = .error .unassignedOpcode ∧
    txOpen.txActive = true ∧ s0.txActive = false ∧
    (issuing [0x05000000#32, 0x30000000#32]).inputs =
      .command 0x05000000#32 :: .command (encode .seqNext) :: [] := by decide
theorem test_witness_AtMostOneStickyBit : ∃ t, step (issuing [0x05000000#32]) = .next t := ⟨_, rfl⟩
/-- CMD_ERR, RX_OVF and RX_SHORT each set by its event, and each cleared by its mask. -/
theorem test_witness_StickyBitsChangeTwoWays :
    (after (exec .txEnd s0)).map State.cmdErr = some true ∧
    (after (exec (.rxByte 7#8) (rx .message [1#8, 2#8, 3#8, 4#8, 5#8, 6#8] []))).map State.rxOvf = some true ∧
    (after (exec (.rxByte 0xB2#8) (rx .checksum2 [] [0x57#8]))).map State.rxShort = some true ∧
    (after (exec (.statusClear 7#3) { s0 with cmdErr := true, rxOvf := true, rxShort := true })) = some s0 ∧
    decode 0x05000000#32 = .error .unassignedOpcode ∧
    (after (stepWord 0x05000000#32 { s0 with rxOvf := true })) = some { s0 with cmdErr := true, rxOvf := true } := by
  decide +kernel
theorem test_witness_StickyBitsChangeNoBehaviour : Instr.rxByte 1#8 ≠ .statusRead := by decide
/-- For each opcode, a word that has it and is not its command: the illegal-word clauses of NopCommand, CrcInitCommand,
CrcByteCommand, CrcReadCommand, CrcVerifyCommand, TxStartCommand, TxByteCommand, TxSeqCommand, TxEndCommand,
RxByteCommand, RxResetCommand, SeqNextCommand, StatusReadCommand and StatusClearCommand. -/
theorem test_witness_illegal_forms :
    (∀ op ∈ [0x00#8, 0x01#8, 0x03#8, 0x10#8, 0x12#8, 0x13#8, 0x21#8, 0x30#8, 0x40#8],
      (wordOf op 1#16).extractLsb' 24 8 = op ∧ wordOf op 1#16 ≠ wordOf op 0#16) ∧
    (∀ op ∈ [0x02#8, 0x11#8, 0x20#8],
      (wordOf op 0x0100#16).extractLsb' 24 8 = op ∧ (wordOf op 0x0100#16).extractLsb' 8 16 ≠ 0#16) ∧
    (0x04010000#32).extractLsb' 24 8 = 0x04#8 ∧ (0x04010000#32).extractLsb' 16 8 ≠ 0#8 ∧
    (0x41000008#32).extractLsb' 24 8 = 0x41#8 ∧ (0x41000008#32).extractLsb' 3 21 ≠ 0#21 := by decide
theorem test_witness_CrcVerifyCommand :
    (0x916F#16).extractLsb' 8 8 = (0x6F91#16).extractLsb' 0 8 ∧
    (0x916F#16).extractLsb' 0 8 = (0x6F91#16).extractLsb' 8 8 ∧
    (0x916F#16).extractLsb' 8 8 ≠ (0x916F#16).extractLsb' 0 8 := by decide
/-- TxStartCommand, TxByteCommand, TxSeqCommand and TxEndCommand, each clause. -/
theorem test_witness_transmit_commands : txOpen.txActive = true ∧ s0.txActive = false ∧ s0.seq = 0#8 ∧
    (∃ t, exec .txStart txOpen = .next t) ∧ (∃ t, exec .txEnd txOpen = .next t) :=
  ⟨rfl, rfl, rfl, ⟨_, rfl⟩, ⟨_, rfl⟩⟩
theorem test_witness_RxByteCommand : s0.rxState = .idle ∧ ∃ t, exec (.rxByte 0x10#8) s0 = .next t :=
  ⟨rfl, ⟨_, rfl⟩⟩
theorem test_witness_RxResetCommand : s0.Inv ∧ s0.rxState = .idle := by decide
theorem test_witness_SeqNextCommand : ({ s0 with seq := 255#8 } : State).seq = 255#8 := by decide
theorem test_witness_StatusReadCommand :
    (rx .waitStart [] []).rxState = .waitStart ∧ (rx .waitStart [] []).txActive = false ∧
    (rx .waitStart [] []).cmdErr = false ∧ (rx .waitStart [] []).rxOvf = false ∧
    (rx .waitStart [] []).rxShort = false ∧ txOpen.rxState = .idle ∧ txOpen.txActive = true ∧
    txOpen.cmdErr = false ∧ ({ s0 with cmdErr := true } : State).cmdErr = true := by decide
/-- RxInIdle, RxInWaitStart, RxInMessage, RxInMessageEscape and RxInChecksum1. -/
theorem test_witness_receive_states :
    (rx .idle [] []).rxState = .idle ∧ (rx .waitStart [] []).rxState = .waitStart ∧
    (rx .message [1#8] []).rxState = .message ∧ (rx .messageEscape [1#8] []).rxState = .messageEscape ∧
    (rx .checksum1 [1#8] []).rxState = .checksum1 ∧ s0.Inv := by decide
/-- V-RX-1's last byte, V-RX-5's first frame, a mismatch, and V-RX-8's swapped checksum. -/
theorem test_witness_RxInChecksum2 :
    [0x96#8] ++ [0x78#8] = compute ([1#8, 2#8, 3#8, 4#8, 0x55#8] ++ [0x10#8, 0x03#8]) ∧
    [0x57#8] ++ [0xB2#8] = compute ([] ++ [0x10#8, 0x03#8]) ∧ ([] : List Byte).length < 4 ∧
    [0x57#8] ++ [0xB3#8] ≠ compute ([] ++ [0x10#8, 0x03#8]) ∧
    compute ([] ++ [0x10#8, 0x03#8]) = [0x57#8, 0xB2#8] ∧ (0x57#8 : Byte) ≠ 0xB2#8 := by decide +kernel
theorem test_witness_IdleClearsBuffers :
    (∃ t, exec (.rxByte 0x41#8) (rx .messageEscape [1#8] []) = .next t ∧ t.rxState = .idle) ∧
    (rx .messageEscape [1#8] []).rxState ≠ .idle := ⟨⟨_, rfl, rfl⟩, by decide⟩
theorem test_witness_AppendWithinCapacity :
    (rx .message [1#8, 2#8, 3#8, 4#8, 5#8, 6#8] []).rxMsg.length = 6 ∧
    (rx .message [1#8, 2#8, 3#8, 4#8, 5#8] []).rxMsg.length + 1 = 6 ∧ s0.rxMaxBody = 6 := by decide
theorem test_witness_UnpackSplitsHeader : 4 ≤ ([1#8, 2#8, 3#8, 4#8] : List Byte).length := by decide
/-- A frame with other commands between its transmit commands. -/
theorem test_witness_StreamingIsPack : s0.txActive = false ∧
    [Instr.crcInit, .txStart, .txByte 1#8, .rxByte 5#8, .txByte 2#8, .txByte 3#8, .seqNext, .txByte 4#8, .txEnd,
      .statusRead].filter isTxCommand = .txStart :: ([1#8, 2#8, 3#8, 4#8] ++ []).map .txByte ++ [.txEnd] := by decide
/-- The payload that just fits, and the empty one. -/
theorem test_witness_RoundTrip : s0.rxState = .idle ∧ 4 + [0x10#8, 0x41#8].length ≤ s0.rxMaxBody ∧
    4 + ([] : List Byte).length ≤ s0.rxMaxBody := by decide
theorem test_witness_OnlyNextMovesCounter :
    txOpen.txActive = true ∧ s0.txActive = false ∧ Instr.nop ≠ .seqNext ∧ Instr.nop ≠ .txSeq := by decide
theorem test_witness_CounterRunsInOrder :
    txOpen.txActive = true ∧ ∀ i ∈ [Instr.seqNext, Instr.txSeq], i = .seqNext ∨ i = .txSeq := by decide
theorem test_witness_ResultsFromFourCommands :
    (∃ t, exec .crcRead s0 = .next t) ∧ (∃ t, exec .nop s0 = .next t) ∧
    decode 0x03000001#32 = .error .operandBreaksForm ∧ (∃ t, stepWord 0x03000001#32 s0 = .next t) :=
  ⟨⟨_, rfl⟩, ⟨_, rfl⟩, by decide, ⟨_, rfl⟩⟩
theorem test_witness_TransmitAndReceiveIndependent :
    isTxCommand .txSeq = true ∧ isRxCommand (.rxByte 0x10#8) = true := by decide
theorem test_witness_OpenFrameEndsTwoWays :
    (∃ t, step { txOpen with inputs := [.command 0x13000000#32] } = .next t ∧ t.txActive = false) ∧
    (∃ t, step { txOpen with inputs := [.reset] } = .next t ∧ t.txActive = false) ∧ txOpen.txActive = true :=
  ⟨⟨_, rfl, rfl⟩, ⟨_, rfl, rfl⟩, rfl⟩
theorem test_witness_HostCrcIsItsOwn : Instr.txEnd ≠ .crcInit ∧ Instr.txEnd ≠ .crcRead ∧
    (∀ d, Instr.txEnd ≠ .crcByte d) ∧ ∀ k, Instr.txEnd ≠ .crcVerify k :=
  ⟨by decide, by decide, fun _ => Instr.noConfusion, fun _ => Instr.noConfusion⟩
theorem test_witness_TransmitCrcUnobservedOutsideFrame : s0.txActive = false := by decide
theorem test_witness_PseudoInstructionEffects : s0.txActive = false := by decide
/-- R54: the commands TX_SEQ and TX_END keep their own opcodes; form Z takes no operand; a comment is dropped. -/
theorem test_assemble_opcodes : assembleLine "TX_SEQ".toList = .ok (some 0x12000000#32) ∧
    assembleLine "TX_END ; done".toList = .ok (some 0x13000000#32) ∧
    assembleLine "TX_END 0".toList = .error .badOperand := by decide
theorem test_witness_AssemblerMakesCommandWords :
    assembleLine "RX_BYTE 0x10".toList = .ok (some 0x20000010#32) ∧
    ';' ∉ "TX_BYTE 65 ".toList ∧ '\'' ∉ "TX_BYTE 65 ".toList := by decide
theorem test_witness_ComputeAndVerify : ([0x6F#8, 0x91#8] : List Byte).length = 2 := by decide
theorem test_witness_OneWrongByteIsDetected : (0x54#8 : Byte) ≠ 0x55#8 := by decide
theorem test_witness_AssemblerReadsOperands :
    NumberText "65".toList 65 ∧ NumberText "0x4F".toList 79 ∧ parseOperand .b "'A'".toList = some 65 ∧
    parseOperand .m "RX_SHORT | CMD_ERR".toList = some 5 :=
  ⟨.inl ⟨[6, 5], by decide⟩, .inr ⟨[(4, true), (15, true)], by decide⟩, by decide, by decide⟩

end Sys2Proof.Tests
end

/-! SUPPORT. Decoding as the unique matching row (R50), and that decoding inverts encoding (R47 to R49). -/

namespace Sys2Proof

open Laws.EncodesWellFormed (opdField_wordOf)

/-- A mask that covers OP compares the opcodes. -/
theorem opField_eq_of_matches {w mask p : Word} (hm : opField mask = BitVec.allOnes 8) (h : w &&& mask = p) :
    opField w = opField p := by
  unfold opField at hm ⊢
  rw [← h, BitVec.extractLsb'_and, hm, BitVec.and_allOnes]

theorem decodeTable_mask_covers_op : ∀ r ∈ decodeTable, opField r.mask = BitVec.allOnes 8 := by decide

theorem decodeTable_ops_distinct :
    decodeTable.Pairwise fun r r' => opField r.pattern ≠ opField r'.pattern := by decide

/-- In a table of distinct opcodes, whichever row matches is the one that decodes. -/
theorem decodeIn_of_matches {w : Word} {r : Row} {rows : List Row}
    (hm : ∀ r ∈ rows, opField r.mask = BitVec.allOnes 8)
    (hd : rows.Pairwise fun r r' => opField r.pattern ≠ opField r'.pattern)
    (hr : r ∈ rows) (h : w &&& r.mask = r.pattern) : decodeIn w rows = .ok (r.build w) := by
  induction rows with
  | nil => cases hr
  | cons r' rows ih =>
    obtain ⟨hne, hd⟩ := List.pairwise_cons.mp hd
    rcases List.mem_cons.mp hr with rfl | hr'
    · simp [decodeIn, h]
    · have hop : opField w = opField r.pattern := opField_eq_of_matches (hm r hr) h
      have hskip : w &&& r'.mask ≠ r'.pattern := fun h' =>
        hne r hr' ((opField_eq_of_matches (hm r' (by simp)) h').symm.trans hop)
      simp only [decodeIn, hskip, if_false]
      exact ih (fun r hr => hm r (by simp [hr])) hd hr'

/-- The row of R49 that matches a word gives its command (R50). -/
theorem decode_of_matches {w : Word} {r : Row} (hr : r ∈ decodeTable) (h : w &&& r.mask = r.pattern) :
    decode w = .ok (r.build w) :=
  decodeIn_of_matches decodeTable_mask_covers_op decodeTable_ops_distinct hr h

/-- A row's mask takes OP, RSV and the operand bits its form fixes; where those are zero, OP alone is left. -/
theorem wordOf_and_mask (op : BitVec 8) {opd fixed : BitVec 16} (h : opd &&& fixed = 0#16) :
    wordOf op opd &&& (0xFFFF0000#32 ||| fixed.setWidth 32) = wordOf op 0#16 := by
  apply word_eq_of_parts 16 (by decide)
  · apply BitVec.eq_of_getLsbD_eq
    intro k hk
    have hones : ∀ k < 16, (0xFFFF0000#32).getLsbD (16 + k) = true := by decide
    simp [wordOf, hones k hk]
  · have hopd (v : BitVec 16) : (wordOf op v).extractLsb' 0 16 = v := opdField_wordOf op v
    have hfix : (fixed.setWidth 32).extractLsb' 0 16 = fixed := by
      apply BitVec.eq_of_getLsbD_eq; intro k hk; simp [hk]; omega
    rw [BitVec.extractLsb'_and, BitVec.extractLsb'_or, hopd, hopd, hfix]
    simpa using h

/-- The word of an opcode and an operand of its form decodes by that opcode's row. -/
theorem decode_wordOf {op : BitVec 8} {opd : BitVec 16} (fixed : BitVec 16) {build : Word → Instr}
    (hr : ⟨wordOf op 0#16, 0xFFFF0000#32 ||| fixed.setWidth 32, build⟩ ∈ decodeTable) (h : opd &&& fixed = 0#16) :
    decode (wordOf op opd) = .ok (build (wordOf op opd)) :=
  decode_of_matches hr (wordOf_and_mask op h)

/-- The low bits of a word are its operand (R47, R48). -/
theorem extractLsb'_wordOf {n : Nat} (hn : n ≤ 16) (op : BitVec 8) (v : BitVec n) :
    (wordOf op (v.setWidth 16)).extractLsb' 0 n = v := by
  apply BitVec.eq_of_getLsbD_eq
  intro k hk
  have h24 : k < 24 := by omega
  have h16 : k < 16 := by omega
  have h32 : k < 32 := by omega
  simp [wordOf, hk, h24, h16, h32]

/-- Form Z: the row's own word. -/
theorem decode_formZ {op : BitVec 8} {i : Instr}
    (hr : ⟨wordOf op 0#16, 0xFFFFFFFF#32, fun _ => i⟩ ∈ decodeTable) : decode (wordOf op 0#16) = .ok i :=
  decode_wordOf 0xFFFF#16 hr rfl

/-- Form B: the row's word with any byte as operand. -/
theorem decode_formB {op : BitVec 8} (f : Byte → Instr)
    (hr : ⟨wordOf op 0#16, 0xFFFFFF00#32, fun w => f (byteOperand w)⟩ ∈ decodeTable) (d : Byte) :
    decode (wordOf op (d.setWidth 16)) = .ok (f d) := by
  have hfit : d.setWidth 16 &&& 0xFF00#16 = 0#16 := by revert d; decide
  rw [decode_wordOf 0xFF00#16 hr hfit, byteOperand, extractLsb'_wordOf (by decide)]

/-- Form H: the row's word with any u16 as operand. -/
theorem decode_formH {op : BitVec 8} (f : U16 → Instr)
    (hr : ⟨wordOf op 0#16, 0xFFFF0000#32, fun w => f (halfOperand w)⟩ ∈ decodeTable) (k : U16) :
    decode (wordOf op k) = .ok (f k) := by
  rw [decode_wordOf 0#16 hr BitVec.and_zero]
  exact congrArg (fun v => Except.ok (f v)) (opdField_wordOf op k)

/-- Form M: the row's word with any three bits as operand. -/
theorem decode_formM {op : BitVec 8} (f : BitVec 3 → Instr)
    (hr : ⟨wordOf op 0#16, 0xFFFFFFF8#32, fun w => f (maskOperand w)⟩ ∈ decodeTable) (m : BitVec 3) :
    decode (wordOf op (m.setWidth 16)) = .ok (f m) := by
  have hfit : m.setWidth 16 &&& 0xFFF8#16 = 0#16 := by revert m; decide
  rw [decode_wordOf 0xFFF8#16 hr hfit, maskOperand, extractLsb'_wordOf (by decide)]

/-- Decoding inverts encoding (R47 to R50): each command's word meets its own row. -/
theorem decode_encode (i : Instr) : decode (encode i) = .ok i := by
  cases i with
  | nop => exact decode_formZ (by simp [decodeTable, wordOf, opcodeOf])
  | crcInit => exact decode_formZ (by simp [decodeTable, wordOf, opcodeOf])
  | crcByte d => exact decode_formB .crcByte (by simp [decodeTable, wordOf, opcodeOf]) d
  | crcRead => exact decode_formZ (by simp [decodeTable, wordOf, opcodeOf])
  | crcVerify k => exact decode_formH .crcVerify (by simp [decodeTable, wordOf, opcodeOf]) k
  | txStart => exact decode_formZ (by simp [decodeTable, wordOf, opcodeOf])
  | txByte d => exact decode_formB .txByte (by simp [decodeTable, wordOf, opcodeOf]) d
  | txSeq => exact decode_formZ (by simp [decodeTable, wordOf, opcodeOf])
  | txEnd => exact decode_formZ (by simp [decodeTable, wordOf, opcodeOf])
  | rxByte d => exact decode_formB .rxByte (by simp [decodeTable, wordOf, opcodeOf]) d
  | rxReset => exact decode_formZ (by simp [decodeTable, wordOf, opcodeOf])
  | seqNext => exact decode_formZ (by simp [decodeTable, wordOf, opcodeOf])
  | statusRead => exact decode_formZ (by simp [decodeTable, wordOf, opcodeOf])
  | statusClear mask => exact decode_formM .statusClear (by simp [decodeTable, wordOf, opcodeOf]) mask

end Sys2Proof

/-! SUPPORT. Every command answers a next state (R11), and none reads or writes what is yet to be issued (R17). -/

namespace Sys2Proof.Machine

/-- No command faults or refuses: the transmit commands answer on both sides of their check (R74). -/
theorem exec_safe (i : Instr) (s : State) : Safe (exec i s) := by
  cases i with
  | nop => exact ⟨_, rfl⟩
  | crcInit => exact ⟨_, rfl⟩
  | crcByte d => exact ⟨_, rfl⟩
  | crcRead => exact ⟨_, rfl⟩
  | crcVerify k => exact ⟨_, rfl⟩
  | txStart => simp only [exec, execTxStart]; split <;> exact ⟨_, rfl⟩
  | txByte d => simp only [exec, execTxByte]; split <;> exact ⟨_, rfl⟩
  | txSeq => simp only [exec, execTxSeq]; split <;> exact ⟨_, rfl⟩
  | txEnd => simp only [exec, execTxEnd]; split <;> exact ⟨_, rfl⟩
  | rxByte d => exact ⟨_, rfl⟩
  | rxReset => exact ⟨_, rfl⟩
  | seqNext => exact ⟨_, rfl⟩
  | statusRead => exact ⟨_, rfl⟩
  | statusClear mask => exact ⟨_, rfl⟩

/-- A step is safe: an idle step, an illegal word and a reset answer at once, a command by `exec_safe`. -/
theorem step_safe (s : State) : Safe (step s) := by
  obtain ⟨-, h⟩ | ⟨w, rest, i, -, -, h⟩ | ⟨w, rest, e, -, -, h⟩ | ⟨rest, -, h⟩ := step_cases s
  · exact ⟨_, h⟩
  · exact h ▸ exec_safe i _
  · exact ⟨_, h⟩
  · exact ⟨_, h⟩

/-- The state with another list of inputs yet to be issued. -/
def State.withInputs (s : State) (xs : List Input) : State := { s with inputs := xs }

section
variable (s : State) (xs : List Input)

@[simp] theorem State.withInputs_txActive : (s.withInputs xs).txActive = s.txActive := rfl
@[simp] theorem State.withInputs_rxMsg : (s.withInputs xs).rxMsg = s.rxMsg := rfl
@[simp] theorem State.withInputs_rxCk : (s.withInputs xs).rxCk = s.rxCk := rfl
@[simp] theorem State.withInputs_rxMaxBody : (s.withInputs xs).rxMaxBody = s.rxMaxBody := rfl
@[simp] theorem State.withInputs_inputs : (s.withInputs xs).inputs = xs := rfl

/-- `append` (R79) does not depend on the inputs. -/
theorem rxAppend_withInputs (b : Byte) :
    rxAppend b (s.withInputs xs) = ((rxAppend b s).1, (rxAppend b s).2.withInputs xs) := by
  obtain ⟨hfull, h⟩ | ⟨hroom, h⟩ := rxAppend_cases b s
  · rw [h]; exact if_pos hfull
  · rw [h]; exact if_neg hroom

/-- The end of a frame (R86) does not depend on the inputs. -/
theorem rxChecksum2_withInputs (d : Byte) : rxChecksum2 d (s.withInputs xs) = (rxChecksum2 d s).withInputs xs := by
  by_cases hv : verify (s.rxMsg ++ tailMarker) (s.rxCk ++ [d]) = true <;> cases hu : unpack s.rxMsg <;>
    simp only [rxChecksum2, State.withInputs_rxMsg, State.withInputs_rxCk, hv, hu, if_true] <;> rfl

/-- One received byte does not depend on the inputs (R80 to R86). -/
theorem rxAdvance_withInputs (d : Byte) : rxAdvance d (s.withInputs xs) = (rxAdvance d s).withInputs xs := by
  cases h : s.rxState with
  | idle =>
    rw [rxAdvance_idle h, rxAdvance_idle (s := s.withInputs xs) h]
    unfold rxIdle; split <;> rfl
  | waitStart =>
    rw [rxAdvance_waitStart h, rxAdvance_waitStart (s := s.withInputs xs) h]
    unfold rxWaitStart; split <;> rfl
  | message =>
    rw [rxAdvance_message h, rxAdvance_message (s := s.withInputs xs) h]
    simp only [rxMessage, rxAppend_withInputs]; split <;> rfl
  | messageEscape =>
    rw [rxAdvance_messageEscape h, rxAdvance_messageEscape (s := s.withInputs xs) h]
    simp only [rxMessageEscape, rxAppend_withInputs]; split_ifs <;> rfl
  | checksum1 =>
    rw [rxAdvance_checksum1 h, rxAdvance_checksum1 (s := s.withInputs xs) h]
    rfl
  | checksum2 =>
    rw [rxAdvance_checksum2 h, rxAdvance_checksum2 (s := s.withInputs xs) h]
    exact rxChecksum2_withInputs s xs d

end

/-- The check of `tx_active` reads no inputs: if neither branch does, neither does the command. -/
theorem ite_txActive_withInputs {s a b a' b' t : State} {xs : List Input}
    (h : (if s.txActive then .next a else .next b : StepOutcome) = .next t)
    (ha : a' = a.withInputs xs) (hb : b' = b.withInputs xs) :
    (if (s.withInputs xs).txActive then .next a' else .next b' : StepOutcome) = .next (t.withInputs xs) := by
  subst ha hb
  cases hs : s.txActive with
  | true => rw [if_pos hs] at h; cases h; exact if_pos hs
  | false => rw [if_neg (by simp [hs])] at h; cases h; exact if_neg (by simp [hs])

/-- A command does the same whatever is issued after it (R17). -/
theorem exec_withInputs {i : Instr} {s t : State} (h : exec i s = .next t) (xs : List Input) :
    exec i (s.withInputs xs) = .next (t.withInputs xs) := by
  cases i with
  | nop => cases h; rfl
  | crcInit => cases h; rfl
  | crcByte d => cases h; rfl
  | crcRead => cases h; rfl
  | crcVerify k => cases h; rfl
  | txStart => exact ite_txActive_withInputs h rfl rfl
  | txByte d => exact ite_txActive_withInputs h rfl rfl
  | txSeq => exact ite_txActive_withInputs h rfl rfl
  | txEnd => exact ite_txActive_withInputs h rfl rfl
  | rxByte d => cases h; exact congrArg _ (rxAdvance_withInputs s xs d)
  | rxReset => cases h; rfl
  | seqNext => cases h; rfl
  | statusRead => cases h; rfl
  | statusClear mask => cases h; rfl

/-- A command leaves what is yet to be issued as it is (R17). -/
theorem exec_inputs {i : Instr} {s t : State} (h : exec i s = .next t) : t.inputs = s.inputs := by
  have hsame : exec i s = .next (t.withInputs s.inputs) := exec_withInputs h s.inputs
  have ht : t = t.withInputs s.inputs := Host.Outcome.next.inj (h.symm.trans hsame)
  rw [ht, State.withInputs_inputs]

/-! SUPPORT. A step that takes a command word, and a run of them (R11, R42). -/

/-- The step that takes a command word is that word's effect on the state with the input taken (R11). -/
theorem step_command {s : State} {w : Word} {rest : List Input} (h : s.inputs = .command w :: rest) :
    step s = stepWord w { s with inputs := rest } := by
  simp [step, takeInput_cons h]

theorem stepWord_of_decode {w : Word} {i : Instr} (h : decode w = .ok i) (s : State) : stepWord w s = exec i s := by
  simp [stepWord, h]

/-- The step that takes a word that decodes runs the decoded command (R11, R50). -/
theorem step_decoded {s : State} {w : Word} {rest : List Input} {i : Instr} (h : s.inputs = .command w :: rest)
    (hd : decode w = .ok i) : step s = exec i { s with inputs := rest } :=
  (step_command h).trans (stepWord_of_decode hd _)

theorem runSteps_succ_next {n : Nat} {s t : State} (h : step s = .next t) : runSteps (n + 1) s = runSteps n t := by
  simp [runSteps, h]

/-- Issued command words run as their commands one after another. -/
theorem runSteps_encoded (cs : List Instr) (rest : List Input) (s : State)
    (h : s.inputs = (cs.map fun i => Input.command (encode i)) ++ rest) :
    runSteps cs.length s = execAll cs { s with inputs := rest } := by
  induction cs generalizing s with
  | nil => subst h; rfl
  | cons i cs ih =>
    have hstep := step_decoded h (decode_encode i)
    obtain ⟨t, ht⟩ := exec_safe i { s with inputs := (cs.map fun i => Input.command (encode i)) ++ rest }
    have hexec : exec i { s with inputs := rest } = .next { t with inputs := rest } := exec_withInputs ht rest
    calc runSteps (cs.length + 1) s
      _ = runSteps cs.length t := runSteps_succ_next (hstep.trans ht)
      _ = execAll cs { t with inputs := rest } := ih t (exec_inputs ht)
      _ = execAll (i :: cs) { s with inputs := rest } := (execAll_cons_next hexec).symm

/-! ### The obligations -/

/-- Settles O6: the step that takes a word that decodes, by `step_decoded`. -/
theorem stepRunsDecodedCommand : Obligations.StepRunsDecodedCommand :=
  fun _ _ _ _ h hd => step_decoded h hd

/-- Settles O8: every command answers a next state, and so does each of the four kinds of step. -/
theorem stepAlwaysNext : Obligations.StepAlwaysNext :=
  ⟨step_safe, exec_safe⟩

/-- Settles O14, by induction on the commands: each word decodes to its own command, which neither reads nor writes
the inputs after it. -/
theorem runIsCommandSequence : Obligations.RunIsCommandSequence :=
  runSteps_encoded

end Sys2Proof.Machine

/-! SUPPORT. The receive machine as a table of effects (R80 to R86), and from it the invariant of the receive buffers
(R25), what every command keeps (R29), the STATUS word (R27), the sticky bits (R28), and which fields a command reads
(R18, R19, R21, R26). -/

namespace Sys2Proof.Machine

/-- What one received byte can do: move the receive side, deliver a message, overflow, or find a short body. -/
inductive RxEffect where
  | move (r : RxState) (msg ck : List Byte)
  | deliver (m : Message)
  | overflow
  | short

/-- The state after an effect of the receive side; all but the first end in IDLE. -/
def RxEffect.apply (e : RxEffect) (s : State) : State :=
  match e with
  | .move r msg ck => { s with rxState := r, rxMsg := msg, rxCk := ck }
  | .deliver m => toIdle (emitDeliver m s)
  | .overflow => toIdle (setRxOvf s)
  | .short => toIdle (setRxShort s)

/-- The effect of `append` in a message (R79). -/
def appendEffect (b : Byte) (s : State) : RxEffect :=
  if s.rxMsg.length = s.rxMaxBody then .overflow else .move .message (s.rxMsg ++ [b]) s.rxCk

/-- The effect of one received byte: it reads the receive side and the capacity, and nothing else (R81 to R86). -/
def rxEffect (d : Byte) (s : State) : RxEffect :=
  match s.rxState with
  | .idle => .move (if d = esc then .waitStart else .idle) s.rxMsg s.rxCk
  | .waitStart => if d = startByte then .move .message [] s.rxCk else .move .idle [] []
  | .message => if d = esc then .move .messageEscape s.rxMsg s.rxCk else appendEffect d s
  | .messageEscape =>
    if d = esc then appendEffect esc s
    else if d = endByte then .move .checksum1 s.rxMsg []
    else .move .idle [] []
  | .checksum1 => .move .checksum2 s.rxMsg (s.rxCk ++ [d])
  | .checksum2 =>
    if verify (s.rxMsg ++ tailMarker) (s.rxCk ++ [d]) then
      match unpack s.rxMsg with
      | some m => .deliver m
      | none => .short
    else .move .idle [] []

section
variable (d : Byte) (s : State)

/-- Moving to where the machine stands is no change. -/
theorem RxEffect.move_apply_self {r : RxState} (h : s.rxState = r) : (RxEffect.move r s.rxMsg s.rxCk).apply s = s := by
  subst h; rfl

/-- A byte appended in MESSAGE or MESSAGE_ESCAPE leaves the machine in MESSAGE, unless the buffer was full. -/
theorem appendEffect_apply (b : Byte) : (appendEffect b s).apply s =
    if (rxAppend b s).1 then { (rxAppend b s).2 with rxState := .message } else (rxAppend b s).2 := by
  obtain ⟨hfull, h⟩ | ⟨hroom, h⟩ := rxAppend_cases b s
  · simp [appendEffect, hfull, h, RxEffect.apply]
  · simp [appendEffect, hroom, h, RxEffect.apply]

/-- The receive machine is its table of effects. -/
theorem rxAdvance_eq_apply : rxAdvance d s = (rxEffect d s).apply s := by
  cases h : s.rxState with
  | idle =>
    rw [rxAdvance_idle h, rxIdle]
    simp only [rxEffect, h]
    split
    · rfl
    · exact (RxEffect.move_apply_self s h).symm
  | waitStart =>
    rw [rxAdvance_waitStart h, rxWaitStart]
    simp only [rxEffect, h]
    split <;> rfl
  | message =>
    rw [rxAdvance_message h, rxMessage]
    simp only [rxEffect, h]
    split
    · rfl
    · obtain ⟨hfull, happ⟩ | ⟨hroom, happ⟩ := rxAppend_cases d s
      · simp [appendEffect, hfull, happ, RxEffect.apply]
      · simp [appendEffect, hroom, happ, RxEffect.apply, ← h]
  | messageEscape =>
    rw [rxAdvance_messageEscape h, rxMessageEscape]
    simp only [rxEffect, h, ← appendEffect_apply]
    split_ifs <;> rfl
  | checksum1 =>
    rw [rxAdvance_checksum1 h, rxChecksum1]
    simp only [rxEffect, h]
    rfl
  | checksum2 =>
    rw [rxAdvance_checksum2 h, rxChecksum2]
    simp only [rxEffect, h]
    split
    · cases unpack s.rxMsg <;> rfl
    · rfl

end

/-! ### The invariant of the receive buffers (R25) -/

/-- IDLE with empty buffers meets the invariant under any capacity R6 allows. -/
theorem toIdle_inv {s : State} (hcap : headerLen ≤ s.rxMaxBody) : (toIdle s).Inv := by
  simp [State.Inv, hcap]

/-- A full buffer overflows; one with room left takes the byte within the capacity. -/
theorem appendEffect_inv {s : State} (hs : s.Inv) (hck : s.rxCk = []) (b : Byte) :
    ((appendEffect b s).apply s).Inv := by
  obtain ⟨hcap, hlen, -⟩ := hs
  unfold appendEffect
  split
  next => exact toIdle_inv (s := setRxOvf s) hcap
  next hroom =>
    have hfit : s.rxMsg.length + 1 ≤ s.rxMaxBody := by omega
    simp [State.Inv, RxEffect.apply, hcap, hck, hfit]

/-- One received byte keeps the invariant, state by state. -/
theorem rxAdvance_inv {s : State} (hs : s.Inv) (d : Byte) : (rxAdvance d s).Inv := by
  have ⟨hcap, hlen, _, hidle, hmsg, _⟩ := hs
  rw [rxAdvance_eq_apply]
  cases h : s.rxState with
  | idle =>
    obtain ⟨hm, hk⟩ := hidle (.inl h)
    simp only [rxEffect, h]
    split <;> simp [State.Inv, RxEffect.apply, hcap, hm, hk]
  | waitStart =>
    obtain ⟨-, hk⟩ := hidle (.inr h)
    simp only [rxEffect, h]
    split <;> simp [State.Inv, RxEffect.apply, hcap, hk]
  | message =>
    have hk : s.rxCk = [] := hmsg (.inl h)
    simp only [rxEffect, h]
    split
    · simp [State.Inv, RxEffect.apply, hcap, hlen, hk]
    · exact appendEffect_inv hs hk d
  | messageEscape =>
    have hk : s.rxCk = [] := hmsg (.inr (.inl h))
    simp only [rxEffect, h]
    split_ifs
    · exact appendEffect_inv hs hk esc
    · simp [State.Inv, RxEffect.apply, hcap, hlen]
    · exact toIdle_inv (s := s) hcap
  | checksum1 =>
    have hk : s.rxCk = [] := hmsg (.inr (.inr h))
    simp [rxEffect, h, State.Inv, RxEffect.apply, hcap, hlen, hk]
  | checksum2 =>
    simp only [rxEffect, h]
    split
    · split
      next m _ => exact toIdle_inv (s := emitDeliver m s) hcap
      next => exact toIdle_inv (s := setRxShort s) hcap
    · exact toIdle_inv (s := s) hcap

/-- A transmit command answers with one of the two branches of its check (R74). -/
theorem ite_next_cases {c : Prop} [Decidable c] {x y t : State}
    (h : (if c then .next x else .next y : StepOutcome) = .next t) : t = x ∨ t = y := by
  split at h <;> cases h
  · exact .inl rfl
  · exact .inr rfl

/-- Every command keeps the invariant; those that are not of the receive side do not touch what it speaks of. -/
theorem exec_inv {i : Instr} {s t : State} (hs : s.Inv) (h : exec i s = .next t) : t.Inv := by
  cases i with
  | txStart | txByte | txSeq | txEnd => obtain rfl | rfl := ite_next_cases h <;> exact hs
  | rxByte d => cases h; exact rxAdvance_inv hs d
  | rxReset => cases h; exact toIdle_inv hs.1
  | _ => cases h; exact hs

/-- Every step keeps the invariant: the input taken is no part of it. -/
theorem step_inv {s t : State} (hs : s.Inv) (h : step s = .next t) : t.Inv := by
  obtain ⟨-, hst⟩ | ⟨w, rest, i, -, -, hst⟩ | ⟨w, rest, e, -, -, hst⟩ | ⟨rest, -, hst⟩ := step_cases s
  · cases hst.symm.trans h; exact hs
  · exact exec_inv (s := { s with inputs := rest }) hs (hst.symm.trans h)
  · cases hst.symm.trans h; exact hs
  · cases hst.symm.trans h; exact toIdle_inv (s := s) hs.1

theorem reset_inv : State.reset.Inv :=
  toIdle_inv (s := State.reset) (Nat.le_add_left 4 Config.rxMaxBodyExtra)

/-! ### What every command keeps (R29, R42) -/

theorem RxEffect.apply_rxMaxBody (e : RxEffect) (s : State) : (e.apply s).rxMaxBody = s.rxMaxBody := by
  cases e <;> rfl

theorem RxEffect.events_prefix_apply (e : RxEffect) (s : State) : s.events <+: (e.apply s).events := by
  cases e with
  | deliver m => exact List.prefix_append _ _
  | move r msg ck => exact List.prefix_rfl
  | overflow => exact List.prefix_rfl
  | short => exact List.prefix_rfl

/-- No command changes the capacity. -/
theorem exec_rxMaxBody {i : Instr} {s t : State} (h : exec i s = .next t) : t.rxMaxBody = s.rxMaxBody := by
  cases i with
  | txStart | txByte | txSeq | txEnd => obtain rfl | rfl := ite_next_cases h <;> rfl
  | rxByte d => cases h; rw [rxAdvance_eq_apply, RxEffect.apply_rxMaxBody]
  | _ => cases h; rfl

/-- A command only appends to the observation. -/
theorem exec_events_prefix {i : Instr} {s t : State} (h : exec i s = .next t) : s.events <+: t.events := by
  cases i with
  | txStart | txByte | txSeq | txEnd => obtain rfl | rfl := ite_next_cases h <;> simp
  | crcRead | crcVerify | seqNext | statusRead => cases h; exact List.prefix_append _ _
  | rxByte d => cases h; rw [rxAdvance_eq_apply]; exact RxEffect.events_prefix_apply _ s
  | _ => cases h; exact List.prefix_rfl

theorem step_frame {s t : State} (h : step s = .next t) :
    t.rxMaxBody = s.rxMaxBody ∧ t.inputs = s.inputs.tail ∧ s.events <+: t.events := by
  obtain ⟨hin, hst⟩ | ⟨w, rest, i, hin, -, hst⟩ | ⟨w, rest, e, hin, -, hst⟩ | ⟨rest, hin, hst⟩ := step_cases s
  · cases hst.symm.trans h
    exact ⟨rfl, by simp [hin], List.prefix_rfl⟩
  · let u : State := { s with inputs := rest }
    have hexec : exec i u = .next t := hst.symm.trans h
    exact ⟨(exec_rxMaxBody hexec :), by simp [exec_inputs hexec, u, hin], (exec_events_prefix hexec :)⟩
  · cases hst.symm.trans h
    exact ⟨rfl, by simp [hin], List.prefix_rfl⟩
  · cases hst.symm.trans h
    exact ⟨rfl, by simp [hin], List.prefix_rfl⟩

/-! ### The STATUS word (R27) -/

/-- A flag moved up by `n` is bit `n` and no other. -/
theorem zextBit_shiftLeft_getLsbD (b : Bool) (n : Nat) {k : Nat} (hk : k < 16) :
    (zextBit b <<< n).getLsbD k = (decide (k = n) && b) := by
  cases b with
  | false => simp [zextBit]
  | true =>
    rw [zextBit, if_pos rfl, ← BitVec.twoPow_eq, BitVec.getLsbD_twoPow]
    grind

theorem zextBit_getLsbD (b : Bool) {k : Nat} (hk : k < 16) : (zextBit b).getLsbD k = (decide (k = 0) && b) := by
  simpa only [BitVec.shiftLeft_zero] using zextBit_shiftLeft_getLsbD b 0 hk

/-- The codes of R22 need three bits. -/
theorem rxCode_getLsbD_high (r : RxState) {k : Nat} (hk : 3 ≤ k) : (rxCode r).getLsbD k = false := by
  have hlt : (rxCode r).toNat < 2 ^ k :=
    calc (rxCode r).toNat
      _ < 2 ^ 3 := by cases r <;> decide
      _ ≤ 2 ^ k := Nat.pow_le_pow_right (by decide) hk
  exact Nat.testBit_lt_two_pow hlt

/-- STATUS bit by bit. -/
theorem statusWord_getLsbD (s : State) {k : Nat} (hk : k < 16) : (statusWord s).getLsbD k =
    (decide (k = 0) && s.cmdErr || decide (k = 1) && s.rxOvf || decide (k = 2) && s.rxShort ||
      decide (8 ≤ k) && (rxCode s.rxState).getLsbD (k - 8) || decide (k = 11) && s.txActive) := by
  have hcode : (rxCode s.rxState <<< 8).getLsbD k = (decide (8 ≤ k) && (rxCode s.rxState).getLsbD (k - 8)) := by
    simp only [BitVec.getLsbD_shiftLeft, hk, decide_true, Bool.true_and, ← decide_not, Nat.not_lt]
  simp only [statusWord, BitVec.getLsbD_or, zextBit_shiftLeft_getLsbD _ _ hk, zextBit_getLsbD _ hk, hcode]

/-- Bits 7:3 and 15:12 of STATUS are reserved. -/
theorem statusWord_reserved (s : State) {k : Nat} (hk : 3 ≤ k ∧ k < 8 ∨ 12 ≤ k ∧ k < 16) :
    (statusWord s).getLsbD k = false := by
  rw [statusWord_getLsbD s (by omega)]
  have h8 : 8 ≤ k → (rxCode s.rxState).getLsbD (k - 8) = false := fun h => rxCode_getLsbD_high _ (by omega)
  have h0 : k ≠ 0 ∧ k ≠ 1 ∧ k ≠ 2 ∧ k ≠ 11 := by omega
  by_cases h : 8 ≤ k <;> simp [h0, h, h8]

/-- Bits 10:8 of STATUS are the code of the receive state. -/
theorem statusWord_code (s : State) : (statusWord s).extractLsb' 8 3 = (rxCode s.rxState).extractLsb' 0 3 := by
  apply BitVec.eq_of_getLsbD_eq
  intro k hk
  simp only [BitVec.getLsbD_extractLsb', hk, statusWord_getLsbD s (show 8 + k < 16 by omega)]
  have h0 : ¬ 8 + k = 11 ∧ ¬ 8 + k = 0 ∧ ¬ 8 + k = 1 ∧ ¬ 8 + k = 2 := by omega
  simp [h0]

/-- The read-only bits of STATUS do not depend on the sticky bits. -/
theorem statusWord_readOnly {s t : State} (hr : t.rxState = s.rxState) (ha : t.txActive = s.txActive) :
    (statusWord t).extractLsb' 3 13 = (statusWord s).extractLsb' 3 13 := by
  apply BitVec.eq_of_getLsbD_eq
  intro k hk
  simp only [BitVec.getLsbD_extractLsb', hk, statusWord_getLsbD _ (show 3 + k < 16 by omega), hr, ha]
  have h0 : ¬ 3 + k = 0 ∧ ¬ 3 + k = 1 ∧ ¬ 3 + k = 2 := by omega
  simp [h0]

/-- The mask of the reserved bits reads 0 (R27). -/
theorem statusWord_and_reserved (s : State) : statusWord s &&& 0xF0F8#16 = 0#16 := by
  apply BitVec.eq_of_getLsbD_eq
  intro k hk
  have hmask : ∀ k < 16, (0xF0F8#16).getLsbD k = true → 3 ≤ k ∧ k < 8 ∨ 12 ≤ k ∧ k < 16 := by decide
  rw [BitVec.getLsbD_and]
  cases hm : (0xF0F8#16).getLsbD k with
  | false => simp
  | true => simp [statusWord_reserved s (hmask k hk hm)]

/-- A field of reserved bits reads 0 (R27). -/
theorem statusWord_reserved_field (s : State) {i n : Nat} (h : 3 ≤ i ∧ i + n ≤ 8 ∨ 12 ≤ i ∧ i + n ≤ 16) :
    (statusWord s).extractLsb' i n = 0#n := by
  apply BitVec.eq_of_getLsbD_eq
  intro k hk
  simp [statusWord_reserved s (show 3 ≤ i + k ∧ i + k < 8 ∨ 12 ≤ i + k ∧ i + k < 16 by omega)]

/-! ### The sticky bits (R27, R28, R74) -/

/-- The transmit command is one R74 refuses in this state. -/
def OutOfSequence (i : Instr) (s : State) : Prop :=
  (i = .txStart ∧ s.txActive = true) ∨ ((i = .txSeq ∨ i = .txEnd ∨ ∃ d, i = .txByte d) ∧ s.txActive = false)

/-- What a command can do to the sticky bits: clear them, receive a byte, be out of sequence, or leave them. -/
theorem exec_sticky_cases {i : Instr} {s t : State} (h : exec i s = .next t) :
    (∃ m, i = .statusClear m ∧ t = clearSticky m s) ∨
    (∃ d, i = .rxByte d ∧ t = (rxEffect d s).apply s) ∨
    (OutOfSequence i s ∧ t = illegalCommand s) ∨
    (t.cmdErr = s.cmdErr ∧ t.rxOvf = s.rxOvf ∧ t.rxShort = s.rxShort) := by
  cases i with
  | statusClear m => cases h; exact .inl ⟨m, rfl, rfl⟩
  | rxByte d => cases h; exact .inr (.inl ⟨d, rfl, rxAdvance_eq_apply d s⟩)
  | txStart =>
    simp only [exec, execTxStart] at h
    split at h <;> cases h
    next ha => exact .inr (.inr (.inl ⟨.inl ⟨rfl, ha⟩, rfl⟩))
    next => exact .inr (.inr (.inr ⟨rfl, rfl, rfl⟩))
  | txByte | txSeq | txEnd =>
    simp only [exec, execTxByte, execTxSeq, execTxEnd] at h
    split at h <;> cases h
    next => exact .inr (.inr (.inr ⟨rfl, rfl, rfl⟩))
    next ha => exact .inr (.inr (.inl ⟨.inr ⟨by simp, by simpa using ha⟩, rfl⟩))
  | _ => cases h; exact .inr (.inr (.inr ⟨rfl, rfl, rfl⟩))

theorem appendEffect_eq_overflow {b : Byte} {s : State} (h : appendEffect b s = .overflow) :
    s.rxMsg.length = s.rxMaxBody := by
  unfold appendEffect at h
  split at h
  next hfull => exact hfull
  next => cases h

theorem appendEffect_ne_short (b : Byte) (s : State) : appendEffect b s ≠ .short := by
  unfold appendEffect; split <;> simp

/-- A byte overflows only where a body byte meets a full buffer (R83, R84). -/
theorem rxEffect_eq_overflow {d : Byte} {s : State} (h : rxEffect d s = .overflow) :
    s.rxMsg.length = s.rxMaxBody ∧ (s.rxState = .message ∧ d ≠ esc ∨ s.rxState = .messageEscape ∧ d = esc) := by
  cases hr : s.rxState with
  | message =>
    simp only [rxEffect, hr] at h
    split at h
    next => cases h
    next hd => exact ⟨appendEffect_eq_overflow h, .inl ⟨rfl, hd⟩⟩
  | messageEscape =>
    simp only [rxEffect, hr] at h
    split_ifs at h with hd
    exact ⟨appendEffect_eq_overflow h, .inr ⟨rfl, hd⟩⟩
  | idle | waitStart | checksum1 | checksum2 => grind [rxEffect]

theorem verify_iff {xs k : List Byte} : verify xs k = true ↔ compute xs = k := beq_iff_eq

/-- `unpack` has no message only for a body without a whole header (R88). -/
theorem length_lt_of_unpack_none {body : List Byte} (h : unpack body = none) : body.length < headerLen := by
  have hsome := unpack_isSome body
  rw [h] at hsome
  simpa using hsome

/-- A byte finds a short body only where it completes a verified frame (R86). -/
theorem rxEffect_eq_short {d : Byte} {s : State} (h : rxEffect d s = .short) :
    s.rxState = .checksum2 ∧ s.rxMsg.length < headerLen ∧ compute (s.rxMsg ++ tailMarker) = s.rxCk ++ [d] := by
  cases hr : s.rxState with
  | checksum2 =>
    simp only [rxEffect, hr] at h
    split at h
    next hv =>
      split at h
      next => cases h
      next hu => exact ⟨rfl, length_lt_of_unpack_none hu, verify_iff.mp hv⟩
    next => cases h
  | idle | waitStart | message | messageEscape | checksum1 => grind [rxEffect, appendEffect_ne_short]

theorem RxEffect.apply_cmdErr (e : RxEffect) (s : State) : (e.apply s).cmdErr = s.cmdErr := by
  cases e <;> rfl

/-- Only an overflow sets RX_OVF, and no effect clears it. -/
theorem RxEffect.apply_rxOvf (e : RxEffect) (s : State) :
    (e.apply s).rxOvf = true ↔ s.rxOvf = true ∨ e = .overflow := by
  cases e <;> simp [RxEffect.apply]

/-- Only a short body sets RX_SHORT, and no effect clears it. -/
theorem RxEffect.apply_rxShort (e : RxEffect) (s : State) :
    (e.apply s).rxShort = true ↔ s.rxShort = true ∨ e = .short := by
  cases e <;> simp [RxEffect.apply]

/-- A bit written by STATUS_CLEAR stays set unless its mask bit is set (R103). -/
theorem set_or_masked {bit mask : Bool} (h : bit = true) : (if mask then false else bit) = true ∨ mask = true := by
  cases mask <;> simp [h]

/-- A command clears a sticky bit only as STATUS_CLEAR with that bit's mask (R28). -/
theorem exec_keeps_sticky {i : Instr} {s t : State} (h : exec i s = .next t) :
    (s.cmdErr = true → t.cmdErr = true ∨ ∃ m, i = .statusClear m ∧ maskCmdErr m = true) ∧
    (s.rxOvf = true → t.rxOvf = true ∨ ∃ m, i = .statusClear m ∧ maskRxOvf m = true) ∧
    (s.rxShort = true → t.rxShort = true ∨ ∃ m, i = .statusClear m ∧ maskRxShort m = true) := by
  obtain ⟨m, rfl, rfl⟩ | ⟨d, rfl, rfl⟩ | ⟨-, rfl⟩ | ⟨hc, ho, hs⟩ := exec_sticky_cases h
  · exact ⟨fun h => (set_or_masked h).imp_right (⟨m, rfl, ·⟩), fun h => (set_or_masked h).imp_right (⟨m, rfl, ·⟩),
      fun h => (set_or_masked h).imp_right (⟨m, rfl, ·⟩)⟩
  · exact ⟨fun h => .inl ((RxEffect.apply_cmdErr _ s).trans h), fun h => .inl ((RxEffect.apply_rxOvf _ s).mpr (.inl h)),
      fun h => .inl ((RxEffect.apply_rxShort _ s).mpr (.inl h))⟩
  · exact ⟨fun _ => .inl rfl, .inl, .inl⟩
  · exact ⟨fun h => .inl (hc.trans h), fun h => .inl (ho.trans h), fun h => .inl (hs.trans h)⟩

/-- Only an out-of-sequence transmit command sets CMD_ERR (R27, R74). -/
theorem exec_sets_cmdErr {i : Instr} {s t : State} (h : exec i s = .next t) (h0 : s.cmdErr = false)
    (h1 : t.cmdErr = true) : OutOfSequence i s := by
  obtain ⟨m, rfl, rfl⟩ | ⟨d, rfl, rfl⟩ | ⟨hseq, -⟩ | ⟨hc, -, -⟩ := exec_sticky_cases h
  · simp [h0] at h1
  · simp [RxEffect.apply_cmdErr, h0] at h1
  · exact hseq
  · simp [hc, h0] at h1

/-- Only an overflow sets RX_OVF (R27, R79). -/
theorem exec_sets_rxOvf {i : Instr} {s t : State} (h : exec i s = .next t) (h0 : s.rxOvf = false)
    (h1 : t.rxOvf = true) : ∃ d, i = .rxByte d ∧ rxEffect d s = .overflow := by
  obtain ⟨m, rfl, rfl⟩ | ⟨d, rfl, rfl⟩ | ⟨-, rfl⟩ | ⟨-, ho, -⟩ := exec_sticky_cases h
  · simp [h0] at h1
  · exact ⟨d, rfl, by simpa [RxEffect.apply_rxOvf, h0] using h1⟩
  · simp [h0] at h1
  · simp [ho, h0] at h1

/-- Only a verified short body sets RX_SHORT (R27, R86). -/
theorem exec_sets_rxShort {i : Instr} {s t : State} (h : exec i s = .next t) (h0 : s.rxShort = false)
    (h1 : t.rxShort = true) : ∃ d, i = .rxByte d ∧ rxEffect d s = .short := by
  obtain ⟨m, rfl, rfl⟩ | ⟨d, rfl, rfl⟩ | ⟨-, rfl⟩ | ⟨-, -, hs⟩ := exec_sticky_cases h
  · simp [h0] at h1
  · exact ⟨d, rfl, by simpa [RxEffect.apply_rxShort, h0] using h1⟩
  · simp [h0] at h1
  · simp [hs, h0] at h1

/-- An ILLEGAL word is an illegal command (R50, R104). -/
theorem stepWord_of_decode_error {w : Word} {e : IllegalReason} (h : decode w = .error e) (s : State) :
    stepWord w s = .next (illegalCommand s) := by
  simp [stepWord, h]

/-! ### What a command does not read

Two runs from states that differ in one field: `rxEffect` does not read it, the check of a transmit command sees the
same `txActive`, and every other command is a record update. -/

/-- RX_BYTE is the effect of its byte. -/
theorem exec_rxByte {d : Byte} {s : State} {e : RxEffect} (h : rxEffect d s = e) :
    exec (.rxByte d) s = .next (e.apply s) :=
  h ▸ congrArg Host.Outcome.next (rxAdvance_eq_apply d s)

/-- No command but STATUS_READ reads a sticky bit (R26). -/
theorem exec_ignores_sticky {i : Instr} (hi : i ≠ .statusRead) (s : State) (a b c : Bool) :
    ∃ t t', exec i s = .next t ∧ exec i { s with cmdErr := a, rxOvf := b, rxShort := c } = .next t' ∧
      t' = { t with cmdErr := t'.cmdErr, rxOvf := t'.rxOvf, rxShort := t'.rxShort } := by
  cases i with
  | statusRead => exact absurd rfl hi
  | txStart | txByte | txSeq | txEnd => obtain ⟨_, _ | _, _⟩ := s <;> exact ⟨_, _, rfl, rfl, rfl⟩
  | rxByte d =>
    generalize he : rxEffect d s = e
    refine ⟨_, _, exec_rxByte he, exec_rxByte he, ?_⟩
    cases e <;> rfl
  | _ => exact ⟨_, _, rfl, rfl, rfl⟩

/-- No command but SEQ_NEXT and TX_SEQ reads or writes the counter (R21). -/
theorem exec_ignores_seq {i : Instr} (hnext : i ≠ .seqNext) (htx : i ≠ .txSeq) (s : State) (v : Byte) :
    ∃ t, exec i s = .next t ∧ t.seq = s.seq ∧ exec i { s with seq := v } = .next { t with seq := v } := by
  cases i with
  | seqNext => exact absurd rfl hnext
  | txSeq => exact absurd rfl htx
  | txStart | txByte | txEnd => obtain ⟨_, _ | _, _⟩ := s <;> exact ⟨_, rfl, rfl, rfl⟩
  | rxByte d =>
    generalize he : rxEffect d s = e
    cases e <;> exact ⟨_, exec_rxByte he, rfl, exec_rxByte (s := { s with seq := v }) he⟩
  | _ => exact ⟨_, rfl, rfl, rfl⟩

/-- No command outside the CRC family reads or writes the host CRC (R18). -/
theorem exec_ignores_crc {i : Instr} (hinit : i ≠ .crcInit) (hbyte : ∀ d, i ≠ .crcByte d) (hread : i ≠ .crcRead)
    (hverify : ∀ k, i ≠ .crcVerify k) (s : State) (v : U16) :
    ∃ t, exec i s = .next t ∧ t.crc = s.crc ∧ exec i { s with crc := v } = .next { t with crc := v } := by
  cases i with
  | crcInit => exact absurd rfl hinit
  | crcByte d => exact absurd rfl (hbyte d)
  | crcRead => exact absurd rfl hread
  | crcVerify k => exact absurd rfl (hverify k)
  | txStart | txByte | txSeq | txEnd => obtain ⟨_, _ | _, _⟩ := s <;> exact ⟨_, rfl, rfl, rfl⟩
  | rxByte d =>
    generalize he : rxEffect d s = e
    cases e <;> exact ⟨_, exec_rxByte he, rfl, exec_rxByte (s := { s with crc := v }) he⟩
  | _ => exact ⟨_, rfl, rfl, rfl⟩

/-- With no frame open, the transmit CRC is unobserved, and the TX_START that opens one overwrites it (R19). -/
theorem exec_ignores_txCrc_closed (i : Instr) {s : State} (hs : s.txActive = false) (v : U16) :
    ∃ t t', exec i s = .next t ∧ exec i { s with txCrc := v } = .next t' ∧ t'.events = t.events ∧
      t' = { t with txCrc := t'.txCrc } ∧ (t.txActive = true → t'.txCrc = t.txCrc) := by
  have hclosed {p : Prop} (h : s.txActive = true) : p := absurd (hs.symm.trans h) Bool.false_ne_true
  cases i with
  | txStart =>
    obtain ⟨_, _, _⟩ := s
    cases hs
    exact ⟨_, _, rfl, rfl, rfl, rfl, fun _ => rfl⟩
  | txByte | txSeq | txEnd =>
    obtain ⟨_, _, _⟩ := s
    cases hs
    exact ⟨_, _, rfl, rfl, rfl, rfl, hclosed⟩
  | rxByte d =>
    generalize he : rxEffect d s = e
    refine ⟨_, _, exec_rxByte he, exec_rxByte he, ?_⟩
    cases e <;> exact ⟨rfl, rfl, hclosed⟩
  | _ => exact ⟨_, _, rfl, rfl, rfl, rfl, hclosed⟩

/-- The counter after `next()` (R95). -/
theorem seqTake_toNat (s : State) : (seqTake s).2.seq.toNat = (s.seq.toNat + 1) % 256 := by
  simp [seqModulus]

/-! ### The obligations -/

/-- Settles O9: only the receive commands touch what the invariant speaks of; a received byte keeps it state by state
(`rxAdvance_inv`), and RX_RESET and reset end in IDLE with empty buffers. -/
theorem stepKeepsInvariant : Obligations.StepKeepsInvariant :=
  fun _ _ hs h => step_inv hs h

/-- Settles O10: reset is IDLE with empty buffers, and the open capacity is a number plus 4. -/
theorem resetMeetsInvariant : Obligations.ResetMeetsInvariant :=
  reset_inv

/-- Settles O13, by the four kinds of step. -/
theorem stepFrame : Obligations.StepFrame :=
  fun _ _ h => step_frame h

/-- Settles O17, from all that a command can do to the sticky bits (`exec_sticky_cases`) and the two rows of the
receive table that set one. -/
theorem stickyBitsChangeTwoWays : Obligations.StickyBitsChangeTwoWays := by
  refine ⟨fun i s t h => ?_, fun w e s t he h => ?_, statusWord_and_reserved, fun m s t h => ?_⟩
  · obtain ⟨hc, ho, hs⟩ := exec_keeps_sticky h
    refine ⟨hc, ho, hs, exec_sets_cmdErr h, fun h0 h1 => ?_, fun h0 h1 => ?_⟩
    · obtain ⟨d, hd, hover⟩ := exec_sets_rxOvf h h0 h1
      exact ⟨d, hd, rxEffect_eq_overflow hover⟩
    · obtain ⟨d, hd, hshort⟩ := exec_sets_rxShort h h0 h1
      exact ⟨d, hd, rxEffect_eq_short hshort⟩
  · cases (stepWord_of_decode_error he s).symm.trans h
    exact ⟨rfl, rfl, rfl⟩
  · cases h
    exact statusWord_readOnly rfl rfl

/-- Settles O18, by `exec_ignores_sticky`. -/
theorem stickyBitsChangeNoBehaviour : Obligations.StickyBitsChangeNoBehaviour :=
  ⟨fun _ s a b c hi => exec_ignores_sticky hi s a b c, fun _ => ⟨_, rfl⟩⟩

/-- Settles O19, from STATUS bit by bit (`statusWord_getLsbD`). -/
theorem statusBits : Obligations.StatusBits := by
  refine ⟨fun s => ⟨?_, ?_, ?_, statusWord_reserved_field s (by decide), ?_, ?_,
    statusWord_reserved_field s (by decide)⟩, ?_⟩
  · rw [statusWord_getLsbD s (by decide)]; simp
  · rw [statusWord_getLsbD s (by decide)]; simp
  · rw [statusWord_getLsbD s (by decide)]; simp
  · rw [statusWord_code]; cases s.rxState <;> rfl
  · rw [statusWord_getLsbD s (by decide), rxCode_getLsbD_high s.rxState (k := 11 - 8) (by decide)]; simp
  · decide

/-- Settles O48: the two movers by `seqTake`, the others by `exec_ignores_seq`. -/
theorem onlyNextMovesCounter : Obligations.OnlyNextMovesCounter := by
  refine ⟨fun s => ⟨_, rfl, seqTake_toNat s⟩, fun s hs => ⟨_, if_pos hs, seqTake_toNat s⟩,
    fun s hs => ⟨illegalCommand s, ?_, rfl⟩, fun i s v hnext htx => exec_ignores_seq hnext htx s v, rfl⟩
  simp [exec, execTxSeq, hs]

/-- Settles O53: the four CRC commands by their definitions, the others by `exec_ignores_crc`. -/
theorem hostCrcIsItsOwn : Obligations.HostCrcIsItsOwn :=
  ⟨fun _ => ⟨_, rfl, rfl⟩, fun _ _ => ⟨_, rfl, rfl⟩, fun _ => ⟨_, rfl, rfl⟩, fun _ _ => ⟨_, rfl, rfl⟩,
    fun _ s v hinit hbyte hread hverify => exec_ignores_crc hinit hbyte hread hverify s v, rfl, rfl⟩

/-- Settles O54, by `exec_ignores_txCrc_closed`. -/
theorem transmitCrcUnobservedOutsideFrame : Obligations.TransmitCrcUnobservedOutsideFrame := by
  refine ⟨fun i s v hs => exec_ignores_txCrc_closed i hs v, fun i s hi => ?_⟩
  obtain rfl | rfl | ⟨d, rfl⟩ | ⟨k, rfl⟩ := hi <;> exact ⟨_, rfl, rfl⟩

end Sys2Proof.Machine

/-! SUPPORT. The legal words are the encodings and the well-formed words (R47 to R51). -/

namespace Sys2Proof

open Laws.EncodesWellFormed

/-! ### A word is its fields -/

/-- A word is its three fields (R47). -/
theorem word_eq_of_fields {x y : Word} (hop : opField x = opField y) (hrsv : rsvField x = rsvField y)
    (hopd : opdField x = opdField y) : x = y := by
  apply word_eq_of_parts 16 (by decide) _ hopd
  apply BitVec.eq_of_getLsbD_eq
  intro k hk
  by_cases h : k < 8
  · have := congrArg (fun v => v.getLsbD k) hrsv
    simpa [rsvField, h, hk] using this
  · have := congrArg (fun v => v.getLsbD (k - 8)) hop
    have hpos : 24 + (k - 8) = 16 + k := by omega
    have hlt : k - 8 < 8 := by omega
    simpa [opField, hlt, hk, hpos] using this

/-- A word whose RSV is zero is made of its OP and its OPD (R47). -/
theorem wordOf_fields {w : Word} (h : rsvField w = 0#8) : wordOf (opField w) (opdField w) = w :=
  word_eq_of_fields (opField_wordOf _ _) ((rsvField_wordOf _ _).trans h.symm) (opdField_wordOf _ _)

/-- A word that agrees with an opcode's word above bit `n` is that opcode with the low `n` bits as operand. -/
theorem wordOf_lowBits {n : Nat} (hn : n ≤ 16) {op : BitVec 8} {w : Word}
    (h : w.extractLsb' n (32 - n) = (wordOf op 0#16).extractLsb' n (32 - n)) :
    wordOf op ((w.extractLsb' 0 n).setWidth 16) = w := by
  apply word_eq_of_parts n (by omega) _ (extractLsb'_wordOf hn op _)
  rw [h]
  apply BitVec.eq_of_getLsbD_eq
  intro k hk
  simp [wordOf, hk]

/-! ### The rows of R49 build commands that encode back -/

section
variable {w p : Word} {op : BitVec 8}

theorem encode_of_matches_z {i : Instr} (hi : encode i = p) (h : w &&& 0xFFFFFFFF#32 = p) : encode i = w :=
  hi.trans ((matches_z p w).mp h).symm

theorem encode_of_matches_b {f : Byte → Instr} (hf : ∀ d, encode (f d) = wordOf op (d.setWidth 16))
    (h : w &&& 0xFFFFFF00#32 = wordOf op 0#16) : encode (f (byteOperand w)) = w :=
  (hf _).trans (wordOf_lowBits (by decide) ((matches_b _ w (extractLsb'_wordOf (by decide) op 0#8)).mp h))

theorem encode_of_matches_h {f : U16 → Instr} (hf : ∀ k, encode (f k) = wordOf op k)
    (h : w &&& 0xFFFF0000#32 = wordOf op 0#16) : encode (f (halfOperand w)) = w := by
  rw [hf, ← BitVec.setWidth_eq (halfOperand w)]
  exact wordOf_lowBits (by decide) ((matches_h _ w (opdField_wordOf op 0#16)).mp h)

theorem encode_of_matches_m {f : BitVec 3 → Instr} (hf : ∀ m, encode (f m) = wordOf op (m.setWidth 16))
    (h : w &&& 0xFFFFFFF8#32 = wordOf op 0#16) : encode (f (maskOperand w)) = w :=
  (hf _).trans (wordOf_lowBits (by decide) ((matches_m _ w (extractLsb'_wordOf (by decide) op 0#3)).mp h))

end

/-- Each row's command encodes to the words the row matches. -/
theorem encode_build_of_matches (w : Word) :
    ∀ r ∈ decodeTable, w &&& r.mask = r.pattern → encode (r.build w) = w := by
  simp only [decodeTable, List.forall_mem_cons]
  exact ⟨encode_of_matches_z rfl, encode_of_matches_z rfl, encode_of_matches_b (op := 0x02#8) fun _ => rfl,
    encode_of_matches_z rfl, encode_of_matches_h (op := 0x04#8) fun _ => rfl, encode_of_matches_z rfl,
    encode_of_matches_b (op := 0x11#8) fun _ => rfl, encode_of_matches_z rfl, encode_of_matches_z rfl,
    encode_of_matches_b (op := 0x20#8) fun _ => rfl, encode_of_matches_z rfl, encode_of_matches_z rfl,
    encode_of_matches_z rfl, encode_of_matches_m (op := 0x41#8) fun _ => rfl, nofun⟩

/-! ### The opcodes of each form, and the unassigned ones (R49, R51) -/

theorem formOfOp_eq_none_iff : ∀ op : BitVec 8, formOfOp op = none ↔
    (5 ≤ op.toNat ∧ op.toNat ≤ 15) ∨ (20 ≤ op.toNat ∧ op.toNat ≤ 31) ∨ (34 ≤ op.toNat ∧ op.toNat ≤ 47) ∨
    (49 ≤ op.toNat ∧ op.toNat ≤ 63) ∨ (66 ≤ op.toNat ∧ op.toNat ≤ 255) := by decide

theorem formOfOp_eq_z_iff : ∀ op : BitVec 8, formOfOp op = some .z ↔
    op ∈ [0x00#8, 0x01#8, 0x03#8, 0x10#8, 0x12#8, 0x13#8, 0x21#8, 0x30#8, 0x40#8] := by decide

theorem formOfOp_eq_b_iff : ∀ op : BitVec 8, formOfOp op = some .b ↔ op ∈ [0x02#8, 0x11#8, 0x20#8] := by decide

theorem formOfOp_eq_h_iff : ∀ op : BitVec 8, formOfOp op = some .h ↔ op = 0x04#8 := by decide

theorem formOfOp_eq_m_iff : ∀ op : BitVec 8, formOfOp op = some .m ↔ op = 0x41#8 := by decide

/-! ### Legal words (R51): some command has that opcode and that operand exactly if OPD meets the opcode's form -/

theorem wordWellFormed_iff {w : Word} : wordWellFormed w = true ↔
    ∃ f, formOfOp (opField w) = some f ∧ rsvField w = 0#8 ∧ f.opdOk (opdField w) = true := by
  unfold wordWellFormed
  cases formOfOp (opField w) <;> simp

/-- An OPD whose bits from `n` on are zero is its low `n` bits. -/
theorem setWidth_lowBits {n : Nat} {opd : BitVec 16} (h : opd.extractLsb' n (16 - n) = 0#(16 - n)) :
    (opd.extractLsb' 0 n).setWidth 16 = opd := by
  apply BitVec.eq_of_getLsbD_eq
  intro k hk
  by_cases hkn : k < n
  · simp [hkn, hk]
  · have hzero := congrArg (fun v => v.getLsbD (k - n)) h
    have hpos : n + (k - n) = k := by omega
    have hlt : k - n < 16 - n := by omega
    simpa [hlt, hpos, hkn] using hzero.symm

/-- Every opcode with an operand of its form is a command's (R48, R49). -/
theorem exists_command {op : BitVec 8} {opd : BitVec 16} {f : Form} (hf : formOfOp op = some f)
    (hopd : f.opdOk opd = true) : ∃ i, opcodeOf i = op ∧ operandOf i = opd := by
  cases f with
  | z =>
    obtain rfl : opd = 0#16 := eq_of_beq hopd
    have hop := (formOfOp_eq_z_iff op).mp hf
    simp only [List.mem_cons, List.not_mem_nil, or_false] at hop
    obtain rfl | rfl | rfl | rfl | rfl | rfl | rfl | rfl | rfl := hop
    exacts [⟨.nop, rfl, rfl⟩, ⟨.crcInit, rfl, rfl⟩, ⟨.crcRead, rfl, rfl⟩, ⟨.txStart, rfl, rfl⟩, ⟨.txSeq, rfl, rfl⟩,
      ⟨.txEnd, rfl, rfl⟩, ⟨.rxReset, rfl, rfl⟩, ⟨.seqNext, rfl, rfl⟩, ⟨.statusRead, rfl, rfl⟩]
  | b =>
    rw [← setWidth_lowBits (n := 8) (eq_of_beq hopd)]
    have hop := (formOfOp_eq_b_iff op).mp hf
    simp only [List.mem_cons, List.not_mem_nil, or_false] at hop
    obtain rfl | rfl | rfl := hop
    exacts [⟨.crcByte _, rfl, rfl⟩, ⟨.txByte _, rfl, rfl⟩, ⟨.rxByte _, rfl, rfl⟩]
  | h => exact ⟨.crcVerify opd, ((formOfOp_eq_h_iff op).mp hf).symm, rfl⟩
  | m =>
    exact ⟨.statusClear (opd.extractLsb' 0 3), ((formOfOp_eq_m_iff op).mp hf).symm, setWidth_lowBits (eq_of_beq hopd)⟩

/-- The word of an assigned opcode with an operand of its form decodes. -/
theorem exists_decode_wordOf {op : BitVec 8} {opd : BitVec 16} {f : Form} (hf : formOfOp op = some f)
    (hopd : f.opdOk opd = true) : ∃ i, decode (wordOf op opd) = .ok i := by
  obtain ⟨i, rfl, rfl⟩ := exists_command hf hopd
  exact ⟨i, decode_encode i⟩

theorem encode_wellFormed (i : Instr) : wordWellFormed (encode i) = true := by
  cases i with
  | nop => exact nop
  | crcInit => exact crcInit
  | crcByte d => exact crcByte d
  | crcRead => exact crcRead
  | crcVerify k => exact crcVerify k
  | txStart => exact txStart
  | txByte d => exact txByte d
  | txSeq => exact txSeq
  | txEnd => exact txEnd
  | rxByte d => exact rxByte d
  | rxReset => exact rxReset
  | seqNext => exact seqNext
  | statusRead => exact statusRead
  | statusClear mask => exact statusClear mask

/-- No second word means the same command (R50). -/
theorem encode_of_decode {w : Word} {i : Instr} (h : decode w = .ok i) : encode i = w := by
  obtain ⟨r, hr, hmatch, rfl⟩ := decodeIn_ok h
  exact encode_build_of_matches w r hr hmatch

/-- The words that decode are the well-formed ones (R47 to R51). -/
theorem exists_decode_ok_iff {w : Word} : (∃ i, decode w = .ok i) ↔ wordWellFormed w = true := by
  constructor
  · rintro ⟨i, h⟩
    exact encode_of_decode h ▸ encode_wellFormed i
  · intro h
    obtain ⟨f, hf, hrsv, hopd⟩ := wordWellFormed_iff.mp h
    exact wordOf_fields hrsv ▸ exists_decode_wordOf hf hopd

theorem exists_decode_error_iff {w : Word} : (∃ e, decode w = .error e) ↔ ¬ wordWellFormed w = true := by
  rw [← exists_decode_ok_iff]
  cases decode w <;> simp

/-- The three classes of R51. -/
theorem not_wordWellFormed_iff {w : Word} : ¬ wordWellFormed w = true ↔
    formOfOp (opField w) = none ∨ rsvField w ≠ 0#8 ∨
      ∃ f, formOfOp (opField w) = some f ∧ f.opdOk (opdField w) = false := by
  rw [wordWellFormed_iff]
  cases formOfOp (opField w) with
  | none => simp
  | some f => simp [imp_iff_not_or]

/-- An OPD that breaks its form, form by form: none can break H (R48). -/
theorem operand_breaks_form_iff {op : BitVec 8} {opd : BitVec 16} :
    (∃ f, formOfOp op = some f ∧ f.opdOk opd = false) ↔
      (formOfOp op = some .z ∧ opd ≠ 0#16) ∨ (formOfOp op = some .b ∧ opd.extractLsb' 8 8 ≠ 0#8) ∨
      (formOfOp op = some .m ∧ opd.extractLsb' 3 13 ≠ 0#13) := by
  constructor
  · rintro ⟨f, hf, hopd⟩
    cases f with
    | z => exact .inl ⟨hf, by simpa [Form.opdOk] using hopd⟩
    | b => exact .inr (.inl ⟨hf, by simpa [Form.opdOk] using hopd⟩)
    | h => cases hopd
    | m => exact .inr (.inr ⟨hf, by simpa [Form.opdOk] using hopd⟩)
  · rintro (⟨hf, hopd⟩ | ⟨hf, hopd⟩ | ⟨hf, hopd⟩)
    · exact ⟨.z, hf, by simpa [Form.opdOk] using hopd⟩
    · exact ⟨.b, hf, by simpa [Form.opdOk] using hopd⟩
    · exact ⟨.m, hf, by simpa [Form.opdOk] using hopd⟩

/-- The bits of OPD are bits of the word (R47). -/
theorem opdField_extractLsb' (w : Word) {i n : Nat} (h : i + n ≤ 16) :
    (opdField w).extractLsb' i n = w.extractLsb' i n := by
  apply BitVec.eq_of_getLsbD_eq
  intro k hk
  have hlt : i + k < 16 := by omega
  simp [opdField, hk, hlt]

/-- Two rows that meet one word are one row: both have its opcode (R50). -/
theorem row_unique {w : Word} {r r' : Row} (hr : r ∈ decodeTable) (hr' : r' ∈ decodeTable)
    (h : w &&& r.mask = r.pattern) (h' : w &&& r'.mask = r'.pattern) : r = r' := by
  have hnodup : (decodeTable.map fun r => opField r.pattern).Nodup := by decide
  have hop : opField r.pattern = opField r'.pattern :=
    (opField_eq_of_matches (decodeTable_mask_covers_op r hr) h).symm.trans
      (opField_eq_of_matches (decodeTable_mask_covers_op r' hr') h')
  exact List.inj_on_of_nodup_map hnodup hr hr' hop

open Machine

/-! ### The obligations -/

/-- Settles O1, command by command: each command's word meets its own row (`decode_encode`). -/
theorem decodeEncode : Obligations.DecodeEncode :=
  decode_encode

/-- Settles O2: the row that decodes a word builds a command that encodes to it, and every encoding is well formed. -/
theorem legalWordsAreEncodings : Obligations.LegalWordsAreEncodings :=
  fun _ i h => ⟨encode_of_decode h, encode_of_decode h ▸ encode_wellFormed i⟩

/-- Settles O3: opcodes are distinct and every mask covers them, so at most one row meets a word. -/
theorem decodeByMatchingRow : Obligations.DecodeByMatchingRow := by
  refine fun w => ⟨fun r hr h => decode_of_matches hr h, fun hnone => ?_, fun r hr r' hr' h h' => ?_, by decide,
    by decide⟩
  · have hillegal : decode w = .error (illegalReason w) := decodeIn_error_iff.mpr ⟨hnone, rfl⟩
    exact ⟨⟨_, hillegal⟩, stepWord_of_decode_error hillegal⟩
  · obtain rfl := row_unique hr hr' h h'
    exact ⟨rfl, rfl⟩

/-- Settles O4: the words that do not decode are those that are not well formed, which fall in the three classes. -/
theorem illegalWordsExactly : Obligations.IllegalWordsExactly := by
  refine fun w => ⟨?_, fun e s h => stepWord_of_decode_error h s, fun e s h hs hstep => ?_⟩
  · rw [exists_decode_error_iff, not_wordWellFormed_iff, formOfOp_eq_none_iff, operand_breaks_form_iff,
      formOfOp_eq_z_iff, formOfOp_eq_b_iff, formOfOp_eq_m_iff,
      opdField_extractLsb' w (by decide), opdField_extractLsb' w (by decide)]
    rfl
  · have hsame : illegalCommand s = s := Host.Outcome.next.inj ((stepWord_of_decode_error h s).symm.trans hstep)
    have hset : s.cmdErr = true := hsame ▸ illegalCommand_cmdErr s
    exact absurd (hs.symm.trans hset) Bool.false_ne_true

/-- Settles O5, by evaluation of the decoder on the nine words. -/
theorem decodeSampleWords : Obligations.DecodeSampleWords := by
  unfold Obligations.DecodeSampleWords
  decide

end Sys2Proof

/-! SUPPORT. The result channel (R53), and what the expansions of the pseudo-instructions do (R55). -/

namespace Sys2Proof.Machine

/-! ### The result channel -/

/-- The receive side emits no result (R53). -/
theorem RxEffect.results_apply (e : RxEffect) (s : State) : results (e.apply s).events = results s.events := by
  cases e with
  | deliver m => simp [RxEffect.apply]
  | move r msg ck => rfl
  | overflow => rfl
  | short => rfl

/-- The result a command emits, if it emits one (R53). -/
def resultsOf (i : Instr) (s : State) : List U16 :=
  match i with
  | .crcRead => [s.crc]
  | .crcVerify k => [if s.crc = k then 0x0001#16 else 0x0000#16]
  | .seqNext => [s.seq.setWidth 16]
  | .statusRead => [statusWord s]
  | _ => []

/-- A command's results: four commands emit one each; transmit bytes and deliveries are none. -/
theorem exec_results {i : Instr} {s t : State} (h : exec i s = .next t) :
    results t.events = results s.events ++ resultsOf i s := by
  cases i with
  | crcRead | crcVerify | seqNext | statusRead => cases h; exact results_append s.events [.result _]
  | txStart | txByte | txSeq | txEnd =>
    have hquiet : results t.events = results s.events := by obtain rfl | rfl := ite_next_cases h <;> simp
    exact hquiet.trans (List.append_nil _).symm
  | rxByte d =>
    have hquiet : results t.events = results s.events := by
      cases h; rw [rxAdvance_eq_apply, RxEffect.results_apply]
    exact hquiet.trans (List.append_nil _).symm
  | _ => cases h; exact (List.append_nil _).symm

/-! ### The CRC pseudo-instructions -/

theorem execAll_crcByte (xs : List Byte) (s : State) :
    execAll (xs.map .crcByte) s = .next { s with crc := crcFold s.crc xs } := by
  induction xs generalizing s with
  | nil => rfl
  | cons b xs ih => exact ih { s with crc := crcStep s.crc b }

/-- CRC_BLOCK leaves the CRC of its bytes (R55). -/
theorem execAll_crcBlock (xs : List Byte) (s : State) : execAll (crcBlock xs) s = .next { s with crc := crc16 xs } :=
  execAll_crcByte xs { s with crc := crcInitValue }

theorem hiByte_append_loByte (c : U16) : hiByte c ++ loByte c = c :=
  (BitVec.extractLsb'_append_extractLsb'_eq_extractLsb' (start₁ := 0) (len₁ := 8) rfl).trans BitVec.extractLsb'_eq_self

/-- The checksum bytes of a value determine it (R34). -/
theorem checksumBytes_inj {c k : U16} : checksumBytes c = checksumBytes k ↔ c = k := by
  refine ⟨fun h => ?_, congrArg checksumBytes⟩
  simp only [checksumBytes, List.cons.injEq, and_true] at h
  obtain ⟨hhi, hlo⟩ := h
  rw [← hiByte_append_loByte c, hhi, hlo, hiByte_append_loByte]

theorem verify_checksumBytes (xs : List Byte) (k : U16) : verify xs (checksumBytes k) = true ↔ crc16 xs = k :=
  verify_iff.trans checksumBytes_inj

/-! ### The frame pseudo-instructions -/

/-- The state after body bytes of an open frame (R72): sent stuffed, folded un-stuffed into the checksum. -/
def txSent (xs : List Byte) (s : State) : State :=
  { s with txCrc := crcFold s.txCrc xs, events := s.events ++ (stuff xs).map Event.txByte }

/-- One body byte is sent as its stuffing. -/
theorem txBodyByte_eq_txSent (d : Byte) (s : State) : txBodyByte d s = txSent [d] s := by
  by_cases h : d = esc <;> simp [txBodyByte, txSent, stuff, h, emitTx]

theorem txSent_append (xs ys : List Byte) (s : State) : txSent ys (txSent xs s) = txSent (xs ++ ys) s := by
  simp [txSent, crcFold_append, stuff_append]

theorem exec_txByte {s : State} (hs : s.txActive = true) (d : Byte) : exec (.txByte d) s = .next (txSent [d] s) :=
  (if_pos hs).trans (congrArg _ (txBodyByte_eq_txSent d s))

theorem execAll_txByte (xs : List Byte) {s : State} (hs : s.txActive = true) :
    execAll (xs.map .txByte) s = .next (txSent xs s) := by
  induction xs generalizing s with
  | nil => simp [execAll, txSent]
  | cons b xs ih =>
    calc execAll (.txByte b :: xs.map .txByte) s
      _ = execAll (xs.map .txByte) (txSent [b] s) := execAll_cons_next (exec_txByte hs b)
      _ = .next (txSent xs (txSent [b] s)) := ih hs
      _ = .next (txSent (b :: xs) s) := by rw [txSent_append]; rfl

/-- The counter's `next()` is addition of bytes (R95). -/
theorem seqTake_snd (s : State) : (seqTake s).2 = { s with seq := s.seq + 1#8 } := by
  refine congrArg (fun v => { s with seq := v }) (BitVec.eq_of_toNat_eq ?_)
  simp [seqModulus]

/-- TX_SEQ in an open frame sends the count and moves it (R98). -/
theorem exec_txSeq {s : State} (hs : s.txActive = true) :
    exec .txSeq s = .next { txSent [s.seq] s with seq := s.seq + 1#8 } := by
  refine (if_pos hs).trans ?_
  rw [txBodyByte_eq_txSent, seqTake_snd]
  rfl

/-- The state after TX_START in a closed state (R71). -/
def txOpened (s : State) : State := { emitTx headMarker s with txCrc := crcInitValue, txActive := true }

/-- The state after TX_END in an open frame (R73). -/
def txClosed (s : State) : State :=
  { emitTx (tailMarker ++ checksumBytes (crcFold s.txCrc tailMarker)) s with
    txCrc := crcFold s.txCrc tailMarker, txActive := false }

theorem exec_txStart {s : State} (hs : s.txActive = false) : exec .txStart s = .next (txOpened s) :=
  if_neg (by simp [hs])

theorem exec_txEnd {s : State} (hs : s.txActive = true) : exec .txEnd s = .next (txClosed s) :=
  if_pos hs

/-- A frame that is opened, given its body and closed is the packed frame on the wire (R66, R69). -/
theorem txClosed_txSent_txOpened_events (body : List Byte) (s : State) :
    (txClosed (txSent body (txOpened s))).events = s.events ++ (frameOf body).map Event.txByte := by
  simp [txClosed, txSent, txOpened, frameOf, compute, crc16, crcFold_append]

/-- TX_FRAME sends the packed frame (R55, R75). -/
theorem execAll_txFrame (p : List Byte) (a b c f : Byte) {s : State} (hs : s.txActive = false) :
    execAll (Pseudo.txFrame p a b c f).expand s = .next (txClosed (txSent (frameBody p a b c f) (txOpened s))) :=
  calc execAll (.txStart :: ((frameBody p a b c f).map .txByte ++ [.txEnd])) s
    _ = execAll ((frameBody p a b c f).map .txByte ++ [.txEnd]) (txOpened s) := execAll_cons_next (exec_txStart hs)
    _ = execAll [.txEnd] (txSent (frameBody p a b c f) (txOpened s)) := execAll_append (execAll_txByte _ rfl)
    _ = .next _ := execAll_cons_next (exec_txEnd rfl)

/-- TX_FRAME_SEQ is TX_FRAME with the count as frame id, and moves the count (R55, R98). -/
theorem execAll_txFrameSeq (p : List Byte) (a b f : Byte) {s : State} (hs : s.txActive = false) :
    execAll (Pseudo.txFrameSeq p a b f).expand s =
      .next { txClosed (txSent (frameBody p a b s.seq f) (txOpened s)) with seq := s.seq + 1#8 } := by
  let u := txSent [a, b] (txOpened s)
  let v : State := { txSent [s.seq] u with seq := s.seq + 1#8 }
  calc execAll (.txStart :: ([a, b].map .txByte ++ .txSeq :: ((f :: p).map .txByte ++ [.txEnd]))) s
    _ = execAll ([a, b].map .txByte ++ .txSeq :: ((f :: p).map .txByte ++ [.txEnd])) (txOpened s) :=
      execAll_cons_next (exec_txStart hs)
    _ = execAll (.txSeq :: ((f :: p).map .txByte ++ [.txEnd])) u := execAll_append (execAll_txByte _ rfl)
    _ = execAll ((f :: p).map .txByte ++ [.txEnd]) v := execAll_cons_next (exec_txSeq rfl)
    _ = execAll [.txEnd] (txSent (f :: p) v) := execAll_append (execAll_txByte _ rfl)
    _ = .next (txClosed (txSent (f :: p) v)) := execAll_cons_next (exec_txEnd rfl)
    _ = .next { txClosed (txSent (f :: p) (txSent [s.seq] u)) with seq := s.seq + 1#8 } := rfl
    _ = _ := by rw [txSent_append, txSent_append]; rfl

/-! ### The obligations -/

/-- Settles O50, command by command (`exec_results`); an illegal word emits nothing. -/
theorem resultsFromFourCommands : Obligations.ResultsFromFourCommands := by
  refine ⟨fun i s t h => exec_results h, fun w e s t he h => ?_⟩
  cases (stepWord_of_decode_error he s).symm.trans h
  rfl

/-- Settles O55: the CRC expansions by folding (`execAll_crcBlock`), the frames by opening, sending and closing
(`execAll_txFrame`, `execAll_txFrameSeq`). -/
theorem pseudoInstructionEffects : Obligations.PseudoInstructionEffects := by
  refine ⟨execAll_crcBlock, fun xs s => execAll_append (execAll_crcBlock xs s), fun xs k s => ?_,
    fun p a b c f s hs => ⟨_, execAll_txFrame p a b c f hs, rfl, txClosed_txSent_txOpened_events _ s⟩,
    fun p a b f s hs => ⟨_, execAll_txFrameSeq p a b f hs, rfl, rfl, txClosed_txSent_txOpened_events _ s⟩,
    fun _ => rfl, fun _ => rfl⟩
  have hverify : verify xs [k.extractLsb' 8 8, k.extractLsb' 0 8] = true ↔ crc16 xs = k := verify_checksumBytes xs k
  rw [if_congr hverify rfl rfl]
  exact execAll_append (execAll_crcBlock xs s)

end Sys2Proof.Machine

/-! SUPPORT. What the assembler reads as an operand: numbers, character literals and flag names (R54). -/

namespace Sys2Proof.Machine

/-! ### Numbers -/

theorem parseDigits_dec (cs : List Char) (v : Nat) : parseDigits 10 decDigit cs = some v ↔
    ∃ ds : List (Fin 10), ds ≠ [] ∧ cs = ds.map decChar ∧ v = ds.foldl (fun n d => 10 * n + d.val) 0 :=
  parseDigits_eq_some decDigit_decChar decDigit_eq_some cs v

theorem parseDigits_hex (cs : List Char) (v : Nat) : parseDigits 16 hexDigit cs = some v ↔
    ∃ ds : List (Fin 16 × Bool), ds ≠ [] ∧ cs = ds.map (fun d => hexChar d.1 d.2) ∧
      v = ds.foldl (fun n d => 16 * n + d.1.val) 0 :=
  parseDigits_eq_some (fun d => hexDigit_hexChar d.1 d.2)
    (fun h => have ⟨d, u, hc, hn⟩ := hexDigit_eq_some h; ⟨(d, u), hc, hn⟩) cs v

theorem x_notMem_decChars (ds : List (Fin 10)) : 'x' ∉ ds.map decChar := by
  have hx : ∀ d, decChar d ≠ 'x' := by decide
  simp [hx]

/-- The number reader reads exactly the number texts (R54); no decimal number has the letter of the prefix `0x`. -/
theorem parseNumber_eq_some (cs : List Char) (v : Nat) : parseNumber cs = some v ↔ NumberText cs v := by
  unfold parseNumber NumberText
  split
  next ds =>
    rw [parseDigits_hex]
    constructor
    · rintro ⟨hs, hne, rfl, rfl⟩; exact .inr ⟨hs, hne, rfl, rfl⟩
    · rintro (⟨hs, hne, hcs, -⟩ | ⟨hs, hne, hcs, hv⟩)
      · exact absurd (by simp [← hcs]) (x_notMem_decChars hs)
      · simp only [List.cons.injEq, true_and] at hcs
        exact ⟨hs, hne, hcs, hv⟩
  next hprefix =>
    rw [parseDigits_dec]
    refine ⟨.inl, ?_⟩
    rintro (h | ⟨hs, -, hcs, -⟩)
    · exact h
    · exact absurd hcs (hprefix _)

/-- Every character of a number is a digit or the letter of the prefix. -/
theorem NumberText.mem {cs : List Char} {v : Nat} (h : NumberText cs v) {c : Char} (hc : c ∈ cs) :
    c = 'x' ∨ (hexDigit c).isSome = true := by
  have hdec : ∀ d, (hexDigit (decChar d)).isSome = true := by decide
  have hhex : ∀ d u, (hexDigit (hexChar d u)).isSome = true := by simp [hexDigit_hexChar]
  obtain ⟨ds, -, rfl, -⟩ | ⟨ds, -, rfl, -⟩ := h
  · obtain ⟨d, -, rfl⟩ := List.mem_map.mp hc
    exact .inr (hdec d)
  · simp only [List.mem_cons, List.mem_map] at hc
    obtain rfl | rfl | ⟨d, -, rfl⟩ := hc
    · exact .inr (hdec 0)
    · exact .inl rfl
    · exact .inr (hhex d.1 d.2)

/-! ### Flag names -/

theorem mem_dropWhile_of_not {p : Char → Bool} {c : Char} {cs : List Char} (h : c ∈ cs) (hc : p c = false) :
    c ∈ cs.dropWhile p := by
  rw [← List.takeWhile_append_dropWhile (p := p) (l := cs)] at h
  exact (List.mem_append.mp h).resolve_left fun hmem => by simp [List.mem_takeWhile_imp hmem] at hc

/-- Trimming takes blanks only. -/
theorem mem_trim_of_not_blank {cs : List Char} {c : Char} (h : c ∈ cs) (hc : isBlank c = false) : c ∈ trim cs :=
  List.mem_reverse.mpr (mem_dropWhile_of_not (List.mem_reverse.mpr (mem_dropWhile_of_not h hc)) hc)

theorem mem_of_mem_trim {cs : List Char} {c : Char} (h : c ∈ trim cs) : c ∈ cs :=
  have hfront := (List.dropWhile_sublist isBlank).mem (List.mem_reverse.mp h)
  (List.dropWhile_sublist isBlank).mem (List.mem_reverse.mp hfront)

/-- The flag names of R54 with their values. -/
def flagNames : List (List Char × Nat) := [("CMD_ERR".toList, 1), ("RX_OVF".toList, 2), ("RX_SHORT".toList, 4)]

theorem flagValue_eq_some_iff_mem (cs : List Char) (v : Nat) : flagValue cs = some v ↔ (cs, v) ∈ flagNames := by
  rw [flagValue_eq_some]
  simp only [flagNames, List.mem_cons, Prod.mk.injEq, List.not_mem_nil, or_false]

/-- A piece that names a flag has no bar in it. -/
theorem bar_notMem_of_flag {w : List Char} {v : Nat} (h : (trim w, v) ∈ flagNames) : '|' ∉ w := fun hbar =>
  have hnames : ∀ p ∈ flagNames, '|' ∉ p.1 := by decide
  hnames _ h (mem_trim_of_not_blank hbar (by decide))

/-- A piece that names a flag has an underscore in it, which no number has. -/
theorem underscore_mem_of_flag {w : List Char} {v : Nat} (h : (trim w, v) ∈ flagNames) : '_' ∈ w :=
  have hnames : ∀ p ∈ flagNames, '_' ∈ p.1 := by decide
  mem_of_mem_trim (hnames _ h)

/-- One more flag name: its value is joined to those before it. -/
def joinFlag (acc : Option Nat) (w : List Char) : Option Nat :=
  acc.bind fun n => (flagValue (trim w)).map fun v => n ||| v

theorem parseFlags_eq_foldl (cs : List Char) : parseFlags cs = (splitBars cs).foldl joinFlag (some 0) := rfl

theorem foldl_joinFlag_none (ws : List (List Char)) : ws.foldl joinFlag none = none := by
  induction ws with
  | nil => rfl
  | cons w ws ih => exact ih

/-- Joining succeeds exactly on pieces that name flags, with the OR of their values. -/
theorem foldl_joinFlag (ws : List (List Char)) (k v : Nat) : ws.foldl joinFlag (some k) = some v ↔
    ∃ ps : List (List Char × Nat), ws = ps.map Prod.fst ∧ (∀ p ∈ ps, (trim p.1, p.2) ∈ flagNames) ∧
      v = ps.foldl (fun n p => n ||| p.2) k := by
  induction ws generalizing k with
  | nil =>
    constructor
    · intro h
      exact ⟨[], rfl, nofun, (Option.some.inj h).symm⟩
    · rintro ⟨ps, hws, -, rfl⟩
      obtain rfl : ps = [] := List.map_eq_nil_iff.mp hws.symm
      rfl
  | cons w ws ih =>
    constructor
    · intro h
      cases hw : flagValue (trim w) with
      | none => simp [joinFlag, hw, foldl_joinFlag_none] at h
      | some u =>
        simp only [List.foldl_cons, joinFlag, hw, Option.bind_some, Option.map_some] at h
        obtain ⟨ps, rfl, hps, rfl⟩ := (ih _).mp h
        have hu := (flagValue_eq_some_iff_mem _ _).mp hw
        exact ⟨(w, u) :: ps, rfl, List.forall_mem_cons.mpr ⟨hu, hps⟩, rfl⟩
    · rintro ⟨_ | ⟨p, ps⟩, hws, hps, rfl⟩
      · cases hws
      · obtain ⟨hp, hps⟩ := List.forall_mem_cons.mp hps
        cases hws
        simp only [List.foldl_cons, joinFlag, (flagValue_eq_some_iff_mem _ _).mpr hp, Option.bind_some, Option.map_some]
        exact (ih _).mpr ⟨ps, rfl, hps, rfl⟩

/-- The flag reader reads exactly the flag names joined by bars (R54). -/
theorem parseFlags_eq_some (cs : List Char) (v : Nat) : parseFlags cs = some v ↔
    ∃ ps : List (List Char × Nat), ps ≠ [] ∧ (∀ p ∈ ps, (trim p.1, p.2) ∈ flagNames) ∧
      cs = List.intercalate ['|'] (ps.map Prod.fst) ∧ v = ps.foldl (fun n p => n ||| p.2) 0 := by
  rw [parseFlags_eq_foldl, foldl_joinFlag]
  constructor
  · rintro ⟨ps, hsplit, hps, hv⟩
    refine ⟨ps, ?_, hps, by rw [← hsplit, splitBars_join], hv⟩
    rintro rfl
    exact splitBars_ne_nil cs hsplit
  · rintro ⟨ps, hne, hps, rfl, hv⟩
    refine ⟨ps, splitBars_intercalate (by simpa using hne) ?_, hps, hv⟩
    intro w hw
    obtain ⟨p, hp, rfl⟩ := List.mem_map.mp hw
    exact bar_notMem_of_flag (hps p hp)

theorem underscore_mem_of_parseFlags {cs : List Char} {v : Nat} (h : parseFlags cs = some v) : '_' ∈ cs := by
  obtain ⟨ps, hne, hps, rfl, -⟩ := (parseFlags_eq_some cs v).mp h
  obtain ⟨p, ps, rfl⟩ := List.exists_cons_of_ne_nil hne
  have hp : '_' ∈ p.1 := underscore_mem_of_flag (hps p List.mem_cons_self)
  cases ps with
  | nil => simpa [List.intercalate] using hp
  | cons q ps =>
    rw [List.map_cons, List.map_cons, intercalate_cons_cons, List.append_assoc]
    exact List.mem_append_left _ hp

/-- No text is both a number and flag names. -/
theorem parseNumber_eq_none_of_parseFlags {cs : List Char} {v : Nat} (h : parseFlags cs = some v) :
    parseNumber cs = none := by
  rw [Option.eq_none_iff_forall_ne_some]
  intro n hn
  have := ((parseNumber_eq_some cs n).mp hn).mem (underscore_mem_of_parseFlags h)
  revert this; decide

/-! ### Operands by form -/

/-- Form M (R54). -/
theorem parseOperand_m (cs : List Char) (v : Nat) :
    parseOperand .m cs = some v ↔ NumberText cs v ∨ parseFlags cs = some v := by
  rw [← parseNumber_eq_some, parseOperand, Option.or_eq_some_iff]
  exact or_congr_right ⟨And.right, fun h => ⟨parseNumber_eq_none_of_parseFlags h, h⟩⟩

/-- Form B (R54): a number has no quote in it. -/
theorem parseOperand_b (cs : List Char) (v : Nat) : parseOperand .b cs = some v ↔
    NumberText cs v ∨ ∃ c : Char, c.toNat < 128 ∧ cs = ['\'', c, '\''] ∧ v = c.toNat := by
  simp only [parseOperand]
  split
  next c =>
    have hquote : ¬ NumberText ['\'', c, '\''] v := fun h =>
      absurd (h.mem List.mem_cons_self) (by decide)
    simp [hquote, eq_comm]
  next hliteral =>
    rw [parseNumber_eq_some]
    refine ⟨.inl, ?_⟩
    rintro (h | ⟨c, -, hcs, -⟩)
    · exact h
    · exact absurd hcs (hliteral c)

/-! ### The values a form takes -/

theorem accepts_some_iff (f : Form) (v : Nat) : f.accepts (some v) = true ↔
    (f = .b ∧ v < 256) ∨ (f = .h ∧ v < 65536) ∨ (f = .m ∧ v < 8) := by
  cases f <;> simp [Form.accepts]

theorem accepts_none_iff (f : Form) : f.accepts none = true ↔ f = .z := by
  cases f <;> simp [Form.accepts]

/-! ### The obligation -/

/-- Settles O60: each form's reader by the lemma about it; the accepted values are those the form's width holds. -/
theorem assemblerReadsOperands : Obligations.AssemblerReadsOperands :=
  ⟨parseNumber_eq_some, parseOperand_b,
    fun cs v => (parseOperand_m cs v).trans (or_congr_right (parseFlags_eq_some cs v)), accepts_some_iff,
    accepts_none_iff⟩

end Sys2Proof.Machine

/-! SUPPORT. The words the assembler makes (R54). -/

namespace Sys2Proof.Machine

/-! ### The mnemonics and their forms (R49) -/

/-- The mnemonics of R49 with their opcodes and forms. -/
def commandTable : List (String × BitVec 8 × Form) :=
  [("NOP", 0x00#8, .z), ("CRC_INIT", 0x01#8, .z), ("CRC_BYTE", 0x02#8, .b), ("CRC_READ", 0x03#8, .z),
    ("CRC_VERIFY", 0x04#8, .h), ("TX_START", 0x10#8, .z), ("TX_BYTE", 0x11#8, .b), ("TX_SEQ", 0x12#8, .z),
    ("TX_END", 0x13#8, .z), ("RX_BYTE", 0x20#8, .b), ("RX_RESET", 0x21#8, .z), ("SEQ_NEXT", 0x30#8, .z),
    ("STATUS_READ", 0x40#8, .z), ("STATUS_CLEAR", 0x41#8, .m)]

/-- The table's rows are the assembler's mnemonics with the decoder's forms. -/
theorem mem_commandTable_iff {name : String} {op : BitVec 8} {f : Form} :
    (name, op, f) ∈ commandTable ↔ (name, op) ∈ mnemonicTable ∧ formOfOp op = some f := by
  have hfwd : ∀ row ∈ commandTable, (row.1, row.2.1) ∈ mnemonicTable ∧ formOfOp row.2.1 = some row.2.2 := by decide
  have hbwd : ∀ row ∈ mnemonicTable, ∀ f ∈ formOfOp row.2, (row.1, row.2, f) ∈ commandTable := by decide
  exact ⟨hfwd _, fun ⟨hrow, hf⟩ => hbwd _ hrow f hf⟩

/-- Mnemonics are distinct, so a row of the table is found exactly by its own name. -/
theorem find_mnemonic_iff {name : List Char} {row : String × BitVec 8} :
    mnemonicTable.find? (fun r => r.1.toList == name) = some row ↔ row ∈ mnemonicTable ∧ name = row.1.toList := by
  have hself : ∀ row ∈ mnemonicTable,
      mnemonicTable.find? (fun r => r.1.toList == row.1.toList) = some row := by decide
  constructor
  · intro h
    have hname : (row.1.toList == name) = true :=
      List.find?_some (p := fun r : String × BitVec 8 => r.1.toList == name) h
    exact ⟨List.mem_of_find?_eq_some h, (eq_of_beq hname).symm⟩
  · rintro ⟨hrow, rfl⟩
    exact hself row hrow

/-! ### A mnemonic with its operand -/

/-- The number an operand text gives a form: none is written in form Z, for 0; elsewhere one is read, and fits. -/
def OperandValue (f : Form) (operand : List Char) (v : Nat) : Prop :=
  (f = .z ∧ operand = [] ∧ v = 0) ∨
    (f ≠ .z ∧ operand ≠ [] ∧ parseOperand f operand = some v ∧ f.accepts (some v) = true)

/-- What the assembler makes of a known mnemonic. -/
theorem assembleCommand_of_mnemonic {name : String} {op : BitVec 8} {f : Form}
    (h : (name, op, f) ∈ commandTable) (operand : List Char) (w : Word) :
    assembleCommand name.toList operand = .ok w ↔ ∃ v, OperandValue f operand v ∧ w = asmWord op v := by
  obtain ⟨hrow, hf⟩ := mem_commandTable_iff.mp h
  simp only [assembleCommand, find_mnemonic_iff.mpr ⟨hrow, rfl⟩, hf, OperandValue]
  by_cases hop : operand = []
  · by_cases hz : f = .z
    · simp [hop, hz, Form.accepts, @eq_comm _ w]
    · simp [hop, hz, accepts_none_iff]
  · cases hparse : parseOperand f operand with
    | none => simp [hop]
    | some v =>
      by_cases hv : f.accepts (some v) = true
      · have hz : f ≠ .z := by rintro rfl; cases hv
        simp [hop, hz, hv, @eq_comm _ w]
      · simp [hop, hv]

/-- A name and an operand text assemble exactly if they are a mnemonic and a value of its form. -/
theorem assembleCommand_eq_ok_iff {name operand : List Char} {w : Word} : assembleCommand name operand = .ok w ↔
    ∃ row ∈ commandTable, name = row.1.toList ∧ ∃ v, OperandValue row.2.2 operand v ∧ w = asmWord row.2.1 v := by
  constructor
  · intro h
    cases hfind : mnemonicTable.find? (fun r => r.1.toList == name) with
    | none => simp [assembleCommand, hfind] at h
    | some row =>
      obtain ⟨hrow, rfl⟩ := find_mnemonic_iff.mp hfind
      cases hf : formOfOp row.2 with
      | none => simp [assembleCommand, hfind, hf] at h
      | some f =>
        have hmem : (row.1, row.2, f) ∈ commandTable := mem_commandTable_iff.mpr ⟨hrow, hf⟩
        exact ⟨_, hmem, rfl, (assembleCommand_of_mnemonic hmem operand w).mp h⟩
  · rintro ⟨row, hrow, rfl, hv⟩
    exact (assembleCommand_of_mnemonic hrow operand w).mpr hv

/-! ### The words made are commands -/

theorem asmWord_toNat (op : BitVec 8) (opd : BitVec 16) : asmWord op opd.toNat = wordOf op opd := by
  rw [asmWord, wordOf, BitVec.ofNat_toNat]

/-- A value that a form takes is an OPD of that form. -/
theorem exists_operand {f : Form} {operand : List Char} {v : Nat} (h : OperandValue f operand v) :
    ∃ opd : BitVec 16, opd.toNat = v ∧ f.opdOk opd = true := by
  obtain ⟨rfl, -, rfl⟩ | ⟨-, -, -, hfits⟩ := h
  · exact ⟨0#16, rfl, rfl⟩
  · cases f with
    | z => cases hfits
    | b =>
      have hv : v < 2 ^ 8 := of_decide_eq_true hfits
      refine ⟨(BitVec.ofNat 8 v).setWidth 16, ?_, Laws.EncodesWellFormed.opdOk_byte _⟩
      simp; omega
    | h =>
      have hv : v < 2 ^ 16 := of_decide_eq_true hfits
      exact ⟨BitVec.ofNat 16 v, Nat.mod_eq_of_lt hv, rfl⟩
    | m =>
      have hv : v < 2 ^ 3 := of_decide_eq_true hfits
      refine ⟨(BitVec.ofNat 3 v).setWidth 16, ?_, Laws.EncodesWellFormed.opdOk_mask _⟩
      simp; omega

/-- An assembled word decodes (R54, R50). -/
theorem exists_decode_of_assembleCommand {name operand : List Char} {w : Word}
    (h : assembleCommand name operand = .ok w) : ∃ i, decode w = .ok i := by
  obtain ⟨row, hrow, -, v, hv, rfl⟩ := assembleCommand_eq_ok_iff.mp h
  obtain ⟨-, hf⟩ := mem_commandTable_iff.mp hrow
  obtain ⟨opd, rfl, hopd⟩ := exists_operand hv
  exact asmWord_toNat row.2.1 opd ▸ exists_decode_wordOf hf hopd

/-! ### Lines -/

/-- The command of a line's text: its name up to the first blank, and the rest without outer blanks. -/
def textCommand (text : List Char) : Except AsmError Word :=
  assembleCommand (text.takeWhile fun c => !isBlank c) (trim (text.dropWhile fun c => !isBlank c))

theorem assembleLine_blank {line : List Char} (h : trim (stripComment line) = []) : assembleLine line = .ok none := by
  simp [assembleLine, h]

theorem assembleLine_command {line : List Char} (h : trim (stripComment line) ≠ []) :
    assembleLine line = (textCommand (trim (stripComment line))).map some := by
  unfold textCommand
  simp only [assembleLine, h, if_false]
  split <;> simp [*, Except.map]

/-- A line makes a word exactly as its name and its operand text do. -/
theorem assembleLine_eq_some_iff {line : List Char} {w : Word} : assembleLine line = .ok (some w) ↔
    trim (stripComment line) ≠ [] ∧ textCommand (trim (stripComment line)) = .ok w := by
  by_cases h : trim (stripComment line) = []
  · simp [assembleLine_blank h, h]
  · rw [assembleLine_command h]
    cases textCommand (trim (stripComment line)) <;> simp [Except.map, h]

/-- A line makes no word exactly if nothing stands before its comment. -/
theorem assembleLine_eq_none_iff {line : List Char} : assembleLine line = .ok none ↔ trim (stripComment line) = [] := by
  by_cases h : trim (stripComment line) = []
  · simp [assembleLine_blank h, h]
  · rw [assembleLine_command h]
    cases textCommand (trim (stripComment line)) <;> simp [Except.map, h]

/-- The comment does not reach the assembler. -/
theorem assembleLine_comment (text comment : List Char) (h : ';' ∉ text) (hq : '\'' ∉ text) :
    assembleLine (text ++ ';' :: comment) = assembleLine text := by
  unfold assembleLine
  rw [stripComment_append text comment h hq]

/-! ### The obligation -/

/-- Settles O56: a command by its row and its operand's value (`assembleCommand_eq_ok_iff`), a line by the text before
its comment, and the word made by the decoder's `exists_decode_wordOf`. -/
theorem assemblerMakesCommandWords : Obligations.AssemblerMakesCommandWords :=
  ⟨fun _ _ _ => assembleCommand_eq_ok_iff, fun _ _ => assembleLine_eq_some_iff, fun _ => assembleLine_eq_none_iff,
    assembleLine_comment, fun _ _ h => exists_decode_of_assembleCommand (assembleLine_eq_some_iff.mp h).2,
    fun i => asmWord_toNat (opcodeOf i) (operandOf i), by decide⟩

end Sys2Proof.Machine

/-! SUPPORT. Which words of an assigned opcode are commands, and what the others do (R48, R51, R104). -/

namespace Sys2Proof

open Machine

/-- How many low bits of the word a form's operand takes (R48). -/
def Form.operandWidth (f : Form) : Nat :=
  match f with
  | .z => 0
  | .b => 8
  | .h => 16
  | .m => 3

/-- A form asks that the bits of OPD above its operand be zero (R48). -/
theorem Form.opdOk_iff {f : Form} {opd : BitVec 16} :
    f.opdOk opd = true ↔ opd.extractLsb' f.operandWidth (16 - f.operandWidth) = 0#(16 - f.operandWidth) := by
  cases f with
  | z => exact beq_iff_eq.trans (by rw [Form.operandWidth, Nat.sub_zero, BitVec.extractLsb'_eq_self])
  | b => exact beq_iff_eq
  | h => exact iff_of_true rfl (Subsingleton.elim (α := BitVec 0) _ _)
  | m => exact beq_iff_eq

/-- Between the operand and OP, a command's word is zero (R47, R48). -/
theorem extractLsb'_reserved_of_wellFormed {w : Word} {f : Form} (hf : formOfOp (opField w) = some f)
    (h : wordWellFormed w = true) :
    w.extractLsb' f.operandWidth (24 - f.operandWidth) = 0#(24 - f.operandWidth) := by
  obtain ⟨f', hf', hrsv, hopd⟩ := wordWellFormed_iff.mp h
  obtain rfl : f' = f := Option.some.inj (hf'.symm.trans hf)
  rw [← wordOf_fields hrsv, ← setWidth_lowBits (Form.opdOk_iff.mp hopd)]
  apply BitVec.eq_of_getLsbD_eq
  intro k hk
  have hbelow : f'.operandWidth + k < 24 := by omega
  simp [wordOf, hbelow]

/-- The word of an opcode without operand is that opcode's one command (R48). -/
theorem eq_wordOf_of_wellFormed_z {w : Word} (hf : formOfOp (opField w) = some .z) (h : wordWellFormed w = true) :
    w = wordOf (opField w) 0#16 := by
  obtain ⟨f, hf', hrsv, hopd⟩ := wordWellFormed_iff.mp h
  obtain rfl : f = .z := Option.some.inj (hf'.symm.trans hf)
  rw [← eq_of_beq hopd, wordOf_fields hrsv]

theorem stepWord_of_not_wellFormed {w : Word} (h : ¬ wordWellFormed w = true) (s : State) :
    stepWord w s = .next { s with cmdErr := true } := by
  obtain ⟨e, he⟩ := exists_decode_error_iff.mpr h
  exact stepWord_of_decode_error he s

/-- A word of a form-Z opcode other than its command is illegal (R51, R104). -/
theorem stepWord_illegal_z {op : BitVec 8} (hf : formOfOp op = some .z) (w : Word) (s : State)
    (hop : w.extractLsb' 24 8 = op) (hw : w ≠ wordOf op 0#16) : stepWord w s = .next { s with cmdErr := true } := by
  subst hop
  exact stepWord_of_not_wellFormed (fun h => hw (eq_wordOf_of_wellFormed_z hf h)) s

/-- A word with a bit set between its operand and OP is illegal (R51, R104). -/
theorem stepWord_illegal_reserved {op : BitVec 8} {f : Form} (hf : formOfOp op = some f) (w : Word) (s : State)
    (hop : w.extractLsb' 24 8 = op)
    (hw : w.extractLsb' f.operandWidth (24 - f.operandWidth) ≠ 0#(24 - f.operandWidth)) :
    stepWord w s = .next { s with cmdErr := true } := by
  subst hop
  exact stepWord_of_not_wellFormed (fun h => hw (extractLsb'_reserved_of_wellFormed hf h)) s

/-- A word is its opcode's word with the operand in the low bits (R54). -/
theorem wordOf_setWidth {n : Nat} (hn : n ≤ 16) (op : BitVec 8) (v : BitVec n) :
    wordOf op (v.setWidth 16) = wordOf op 0#16 ||| v.setWidth 32 := by
  simp [wordOf, hn]

end Sys2Proof

/-! SUPPORT. The CRC: linear, injective step by step, with its residue (R57 to R61); its commands (R62 to R65). -/

namespace Sys2Proof.Machine

/-! ### One shift of the register -/

/-- A shift adds the polynomial if the bit shifted out was 1. -/
theorem crcShift_eq (c : U16) : crcShift c = (c >>> 1) ^^^ (if c.getLsbD 0 then crcPoly else 0#16) := by
  unfold crcShift
  split <;> simp

theorem crcShift_xor (c c' : U16) : crcShift (c ^^^ c') = crcShift c ^^^ crcShift c' := by
  simp only [crcShift_eq, BitVec.ushiftRight_xor_distrib, BitVec.getLsbD_xor]
  have hregroup (p p' : U16) : (c >>> 1 ^^^ c' >>> 1) ^^^ (p ^^^ p') = (c >>> 1 ^^^ p) ^^^ (c' >>> 1 ^^^ p') := by
    ac_rfl
  rw [← hregroup]
  cases c.getLsbD 0 <;> cases c'.getLsbD 0 <;> simp

/-- The polynomial's top bit records the bit that was shifted out. -/
theorem getLsbD_crcShift_top (c : U16) : (crcShift c).getLsbD 15 = c.getLsbD 0 := by
  rw [crcShift_eq, BitVec.getLsbD_xor, BitVec.getLsbD_ushiftRight, BitVec.getLsbD_of_ge c _ (by decide)]
  cases c.getLsbD 0 <;> decide

theorem crcShift_injective : Function.Injective crcShift := by
  intro c c' h
  have hlow : c.getLsbD 0 = c'.getLsbD 0 := by
    rw [← getLsbD_crcShift_top, h, getLsbD_crcShift_top]
  rw [crcShift_eq, crcShift_eq, hlow, BitVec.xor_left_inj] at h
  apply BitVec.eq_of_getLsbD_eq
  intro k hk
  cases k with
  | zero => exact hlow
  | succ k => simpa [Nat.add_comm] using congrArg (fun v => v.getLsbD k) h

/-! ### `n` shifts -/

/-- The last shift may be taken apart from the others. -/
theorem crcShifts_succ (n : Nat) (c : U16) : crcShifts (n + 1) c = crcShift (crcShifts n c) := by
  induction n generalizing c with
  | zero => rfl
  | succ n ih => exact ih (crcShift c)

theorem crcShifts_eq_repeat (n : Nat) (c : U16) : crcShifts n c = Nat.repeat crcShift n c := by
  induction n with
  | zero => rfl
  | succ n ih => rw [crcShifts_succ, ih]; rfl

theorem crcShifts_xor (n : Nat) (c c' : U16) : crcShifts n (c ^^^ c') = crcShifts n c ^^^ crcShifts n c' := by
  induction n generalizing c c' with
  | zero => rfl
  | succ n ih => rw [crcShifts, crcShift_xor, ih]; rfl

theorem crcShifts_injective (n : Nat) : Function.Injective (crcShifts n) := by
  induction n with
  | zero => exact Function.injective_id
  | succ n ih => exact ih.comp crcShift_injective

/-- Zeros leave by plain shifting: the polynomial is never added. -/
theorem crcShifts_of_low_zero (n : Nat) {c : U16} (h : ∀ k < n, c.getLsbD k = false) : crcShifts n c = c >>> n := by
  induction n generalizing c with
  | zero => simp [crcShifts]
  | succ n ih =>
    have hshift : crcShift c = c >>> 1 := if_neg (ne_true_of_eq_false (h 0 n.succ_pos))
    have hlow : ∀ k < n, (c >>> 1).getLsbD k = false := fun k hk => by
      rw [BitVec.getLsbD_ushiftRight]; exact h _ (by omega)
    rw [crcShifts, hshift, ih hlow, ← BitVec.shiftRight_add, Nat.add_comm]

/-! ### Folding one byte -/

theorem crcStep_xor (c c' : U16) (b b' : Byte) : crcStep (c ^^^ c') (b ^^^ b') = crcStep c b ^^^ crcStep c' b' := by
  have hregroup : (c ^^^ c') ^^^ zext16 (b ^^^ b') = (c ^^^ zext16 b) ^^^ (c' ^^^ zext16 b') := by
    rw [zext16, BitVec.setWidth_xor]; ac_rfl
  rw [crcStep, hregroup, crcShifts_xor]
  rfl

theorem zext16_injective : Function.Injective zext16 := fun b b' h => by
  simpa [zext16] using congrArg (fun v => v.setWidth 8) h

theorem crcStep_byte_injective (c : U16) : Function.Injective (crcStep c) := fun _ _ h =>
  zext16_injective ((BitVec.xor_right_inj c).mp (crcShifts_injective 8 h))

theorem crcStep_register_injective (b : Byte) : Function.Injective fun c => crcStep c b := fun _ _ h =>
  (BitVec.xor_left_inj _).mp (crcShifts_injective 8 h)

/-- Folding in the register's own low byte leaves its high byte. -/
theorem crcStep_loByte (c : U16) : crcStep c (loByte c) = zext16 (hiByte c) := by
  have hcancel : ∀ k < 8, (c ^^^ zext16 (loByte c)).getLsbD k = false := fun k hk => by
    simp [zext16, loByte, hk]; omega
  rw [crcStep, crcShifts_of_low_zero 8 hcancel]
  apply BitVec.eq_of_getLsbD_eq
  intro k hk
  by_cases h : k < 8
  · simp [zext16, loByte, hiByte, h, hk]
  · have htop : c.getLsbD (8 + k) = false := BitVec.getLsbD_of_ge c _ (by omega)
    simp [zext16, loByte, hiByte, h, htop]

/-- A byte folded into itself clears the register. -/
theorem crcStep_self (b : Byte) : crcStep (zext16 b) b = 0#16 := by
  rw [crcStep, BitVec.xor_self]
  rfl

/-! ### Folding a list -/

theorem crcFold_injective (xs : List Byte) : Function.Injective fun c => crcFold c xs := by
  induction xs with
  | nil => exact Function.injective_id
  | cons b xs ih => exact ih.comp (crcStep_register_injective b)

theorem crc16_append (xs ys : List Byte) : crc16 (xs ++ ys) = crcFold (crc16 xs) ys := crcFold_append _ xs ys

/-- A list followed by its own checksum, low byte first, has the CRC 0 (V-CRC-6). -/
theorem crc16_append_checksum_low_first (xs : List Byte) :
    crc16 (xs ++ [loByte (crc16 xs), hiByte (crc16 xs)]) = 0#16 := by
  rw [crc16_append, crcFold_cons, crcFold_cons, crcFold_nil, crcStep_loByte, crcStep_self]

/-- The catalogue's check value (R61). -/
theorem crc16_check :
    crc16 [0x31#8, 0x32#8, 0x33#8, 0x34#8, 0x35#8, 0x36#8, 0x37#8, 0x38#8, 0x39#8] = 0x6F91#16 := by
  simp [crc16, crcInitValue, crcStep, crcShifts, crcShift, crcPoly, zext16]

/-! ### The checksum's two bytes -/

/-- Reading two checksum bytes as a value puts the first above the second (R35). -/
theorem checksumValue_eq_append (k0 k1 : Byte) : checksumValue k0 k1 = k0 ++ k1 := by
  apply BitVec.eq_of_getLsbD_eq
  intro k hk
  rw [BitVec.getLsbD_append]
  by_cases h : k < 8
  · simp [checksumValue, zext16, h, hk]
  · have htop : k1.getLsbD k = false := BitVec.getLsbD_of_ge k1 k (by omega)
    simp [checksumValue, zext16, h, hk, htop]

theorem checksumBytes_checksumValue (k0 k1 : Byte) : checksumBytes (checksumValue k0 k1) = [k0, k1] := by
  rw [checksumValue_eq_append, checksumBytes, hiByte, loByte, BitVec.extractLsb'_append_eq_left,
    BitVec.extractLsb'_append_eq_right]

theorem verify_pair_iff {xs : List Byte} {k0 k1 : Byte} :
    verify xs [k0, k1] = true ↔ crc16 xs = checksumValue k0 k1 := by
  rw [← checksumBytes_checksumValue, verify_checksumBytes]

/-! ### The obligations -/

/-- Settles O57, from the equality that `verify` tests and the value of two checksum bytes. -/
theorem computeAndVerify : Obligations.ComputeAndVerify :=
  ⟨fun _ => rfl, fun _ _ _ => verify_pair_iff, fun _ _ _ => verify_iff, fun _ => verify_iff.mpr rfl⟩

/-- Settles O58: linearity and the residue come from the single shift. -/
theorem crcIsReflectedLfsr : Obligations.CrcIsReflectedLfsr :=
  ⟨fun _ _ => crcShifts_eq_repeat 8 _, fun _ => rfl, crcStep_xor, crc16_check, crc16_append_checksum_low_first⟩

/-- Settles O59: the differing byte makes different registers, and equal bytes after it keep them different. -/
theorem oneWrongByteIsDetected : Obligations.OneWrongByteIsDetected := by
  intro xs ys b b' hne heq
  rw [crc16_append, crc16_append] at heq
  have hregister : crcStep (crc16 xs) b = crcStep (crc16 xs) b' := crcFold_injective ys heq
  exact hne (crcStep_byte_injective _ hregister)

/-- Settles O21; a word of the opcode with any operand bit set is illegal (`stepWord_illegal_z`). -/
theorem crcInitCommand : Obligations.CrcInitCommand :=
  ⟨fun _ => rfl, decode_encode .crcInit, stepWord_illegal_z rfl⟩

/-- Settles O22; the word is the encoding, and a bit above the byte makes it illegal (`stepWord_illegal_reserved`). -/
theorem crcByteCommand : Obligations.CrcByteCommand := by
  refine ⟨fun _ _ => rfl, fun d => ?_, stepWord_illegal_reserved (f := .b) rfl, by decide, by decide, by decide⟩
  exact (congrArg decode (wordOf_setWidth (by decide) 0x02#8 d).symm).trans (decode_encode (.crcByte d))

/-- Settles O23; after CRC_BLOCK the result is that of CRC_OF (`pseudoInstructionEffects`). -/
theorem crcReadCommand : Obligations.CrcReadCommand := by
  obtain ⟨-, hOf, -⟩ := pseudoInstructionEffects
  refine ⟨fun _ => rfl, decode_encode .crcRead, stepWord_illegal_z rfl, rfl, fun _ => rfl, fun s => ?_,
    fun xs s => ⟨crc16 xs, hOf xs s, rfl⟩⟩
  rw [← crc16_check]
  exact hOf _ s

/-- A register whose bytes `k` swaps is not `k`, unless the two bytes are equal (R65). -/
theorem ne_of_swapped_bytes {c k : U16} (hhi : hiByte k = loByte c) (hlo : loByte k = hiByte c)
    (hne : hiByte k ≠ loByte k) : c ≠ k := by
  rintro rfl
  exact hne hhi

/-- Settles O24; after CRC_BLOCK the answer is that of CRC_CHECK (`pseudoInstructionEffects`). -/
theorem crcVerifyCommand : Obligations.CrcVerifyCommand := by
  obtain ⟨-, -, hCheck, -⟩ := pseudoInstructionEffects
  refine ⟨fun _ _ => rfl, fun k => ?_, stepWord_illegal_reserved (f := .h) rfl, fun s k hhi hlo hne => ?_,
    hCheck, fun _ => rfl, fun s => ?_⟩
  · have hword := wordOf_setWidth (Nat.le_refl 16) 0x04#8 k
    rw [BitVec.setWidth_eq] at hword
    exact (congrArg decode hword.symm).trans (decode_encode (.crcVerify k))
  · exact congrArg (fun v => Host.Outcome.next (emitResult v s)) (if_neg (ne_of_swapped_bytes hhi hlo hne))
  · rw [execAll_append (execAll_crcBlock _ s), crc16_check]
    exact congrArg (fun es => Host.Outcome.next { s with crc := 0x6F91#16, events := es })
      (List.append_assoc s.events [.result 0x0001#16] [.result 0x0000#16])

end Sys2Proof.Machine

/-! SUPPORT. Stuffing and the layout of a frame (R66 to R70); the commands of the transmit framer (R71 to R73). -/

namespace Sys2Proof.Machine

/-! ### Stuffing -/

theorem stuff_eq_flatMap (xs : List Byte) : stuff xs = xs.flatMap fun b => if b = esc then [esc, esc] else [b] := by
  induction xs with
  | nil => rfl
  | cons b xs ih => by_cases h : b = esc <;> simp [stuff, h, ih]

/-- A byte that is not ESC is passed over (R70). -/
theorem escPaired_other {b : Byte} (h : b ≠ esc) (xs : List Byte) : escPaired (b :: xs) = escPaired xs := by
  cases xs <;> simp [escPaired, h]

/-- Two ESC bytes are paired off (R70). -/
theorem escPaired_esc_esc (xs : List Byte) : escPaired (esc :: esc :: xs) = escPaired xs := by
  simp [escPaired]

theorem escPaired_stuff (xs : List Byte) : escPaired (stuff xs) = true := by
  induction xs with
  | nil => rfl
  | cons b xs ih =>
    by_cases h : b = esc
    · rw [h, stuff_esc, escPaired_esc_esc, ih]
    · rw [stuff_other h, escPaired_other h, ih]

theorem length_stuff (xs : List Byte) : (stuff xs).length = xs.length + xs.count esc := by
  induction xs with
  | nil => rfl
  | cons b xs ih =>
    by_cases h : b = esc
    · rw [h, stuff_esc, List.count_cons_self]; simp only [List.length_cons, ih]; omega
    · rw [stuff_other h, List.count_cons_of_ne h]; simp only [List.length_cons, ih]; omega

/-- A frame is two markers and a checksum of two bytes each, and its stuffed body (R66). -/
theorem length_frameOf (body : List Byte) : (frameOf body).length = 6 + body.length + body.count esc := by
  simp [frameOf, headMarker, tailMarker, compute, checksumBytes, length_stuff]; omega

/-- Settles O44: a frame's bytes by the definition of `pack`. -/
theorem packLayout : Obligations.PackLayout := fun _ _ _ _ _ => rfl

/-- Settles O45, by induction on the list: an ESC byte is stuffed to a pair, another byte to itself. -/
theorem stuffingDoublesEsc : Obligations.StuffingDoublesEsc := by
  refine ⟨stuff_eq_flatMap, escPaired_stuff, length_stuff, fun p a b c f => ?_⟩
  have hbody : (frameBody p a b c f).length = 4 + p.length := Nat.add_comm p.length 4
  rw [pack, length_frameOf, hbody, ← Nat.add_assoc]
  rfl

/-! ### The transmit commands -/

/-- An open frame shows as TX_ACTIVE in STATUS (R27). -/
theorem statusWord_txActive (s : State) : (statusWord s).getLsbD 11 = s.txActive := by
  obtain ⟨hbits, -⟩ := statusBits
  obtain ⟨-, -, -, -, -, hactive, -⟩ := hbits s
  exact hactive

theorem exec_txStart_open {s : State} (hs : s.txActive = true) : exec .txStart s = .next (illegalCommand s) :=
  if_pos hs

theorem exec_txByte_closed {s : State} (hs : s.txActive = false) (d : Byte) :
    exec (.txByte d) s = .next (illegalCommand s) :=
  if_neg (by simp [hs])

theorem exec_txSeq_closed {s : State} (hs : s.txActive = false) : exec .txSeq s = .next (illegalCommand s) :=
  if_neg (by simp [hs])

theorem exec_txEnd_closed {s : State} (hs : s.txActive = false) : exec .txEnd s = .next (illegalCommand s) :=
  if_neg (by simp [hs])

/-- After TX_START a frame is open, whether it opened one or was refused (R71). -/
theorem txActive_of_exec_txStart {s t : State} (h : exec .txStart s = .next t) : t.txActive = true := by
  cases hs : s.txActive with
  | true => cases (exec_txStart_open hs).symm.trans h; exact hs
  | false => cases (exec_txStart hs).symm.trans h; rfl

/-- After TX_END no frame is open, whether it closed one or was refused (R73). -/
theorem txActive_of_exec_txEnd {s t : State} (h : exec .txEnd s = .next t) : t.txActive = false := by
  cases hs : s.txActive with
  | true => cases (exec_txEnd hs).symm.trans h; rfl
  | false => cases (exec_txEnd_closed hs).symm.trans h; exact hs

/-- The checksum of the empty body (R73's example). -/
theorem crc16_tailMarker : crc16 tailMarker = 0x57B2#16 := by
  simp [crc16, tailMarker, esc, endByte, crcInitValue, crcStep, crcShifts, crcShift, crcPoly, zext16]

/-- A frame closed where it was opened is the packed empty body (R73's example). -/
theorem txClosed_txOpened (s : State) : txClosed (txOpened s) =
    { s with txCrc := 0x57B2#16, txActive := false, events := s.events ++ (frameOf []).map Event.txByte } := by
  rw [← crc16_tailMarker]
  simp [txClosed, txOpened, frameOf, compute, crc16, emitTx]

/-- Settles O25: both sides of the check of `tx_active` (`exec_txStart`, `exec_txStart_open`). -/
theorem txStartCommand : Obligations.TxStartCommand := by
  refine ⟨fun s hs => exec_txStart hs, fun s hs => exec_txStart_open hs, decode_encode .txStart,
    stepWord_illegal_z rfl, fun s t h => ?_, exec_txStart rfl⟩
  rw [statusWord_txActive, txActive_of_exec_txStart h]

/-- Settles O26: a byte of an open frame is sent as its stuffing (`exec_txByte`); the word is the encoding. -/
theorem txByteCommand : Obligations.TxByteCommand := by
  refine ⟨fun d s hs => (exec_txByte hs d).trans ?_, fun d s hs => exec_txByte_closed hs d, fun d => ?_,
    stepWord_illegal_reserved (f := .b) rfl⟩
  · by_cases hd : d = 0x10#8
    · subst hd; rfl
    · rw [if_neg hd, txSent, stuff_other hd]; rfl
  · exact (congrArg decode (wordOf_setWidth (by decide) 0x11#8 d).symm).trans (decode_encode (.txByte d))

/-- Settles O28: both sides of the check of `tx_active` (`exec_txEnd`, `exec_txEnd_closed`); the example is the packed
empty body (`txClosed_txOpened`). -/
theorem txEndCommand : Obligations.TxEndCommand := by
  refine ⟨fun s hs => exec_txEnd hs, fun s hs => exec_txEnd_closed hs, decode_encode .txEnd,
    stepWord_illegal_z rfl, fun s t h => ?_, fun s hs => ?_, crc16_tailMarker⟩
  · rw [statusWord_txActive, txActive_of_exec_txEnd h]
  · calc execAll [.txStart, .txEnd] s
      _ = execAll [.txEnd] (txOpened s) := execAll_cons_next (exec_txStart hs)
      _ = .next (txClosed (txOpened s)) := execAll_cons_next (exec_txEnd rfl)
      _ = _ := ?_
    rw [txClosed_txOpened, frameOf, compute, List.nil_append, crc16_tailMarker, hs]
    rfl

end Sys2Proof.Machine

/-! SUPPORT. Streaming a frame by commands (R75); the transmit and the receive side as independent effects (R77). -/

namespace Sys2Proof.Machine

/-! ### The transmit commands as effects -/

/-- What a transmit command can do: be refused, or move the framer and the counter and send bytes. -/
inductive TxEffect where
  | refuse
  | send (active : Bool) (crc : U16) (seq : Byte) (bytes : List Byte)

/-- The state after an effect of the transmit side. -/
def TxEffect.apply (e : TxEffect) (s : State) : State :=
  match e with
  | .refuse => illegalCommand s
  | .send active crc seq bytes => { emitTx bytes s with txActive := active, txCrc := crc, seq := seq }

/-- The effect of a transmit command reads the framer and the counter, and nothing else (R71 to R73, R98). -/
theorem exec_txEffect {i : Instr} (hi : isTxCommand i = true) (s : State) : ∃ e : TxEffect, ∀ s' : State,
    s'.txActive = s.txActive → s'.txCrc = s.txCrc → s'.seq = s.seq → exec i s' = .next (e.apply s') := by
  cases hs : s.txActive with
  | true =>
    cases i with
    | txStart => exact ⟨.refuse, fun s' ha _ _ => exec_txStart_open ha⟩
    | txByte d =>
      refine ⟨.send true (crcStep s.txCrc d) s.seq (stuff [d]), fun s' ha hc hq => (exec_txByte ha d).trans ?_⟩
      rw [← ha, ← hc, ← hq]; rfl
    | txSeq =>
      refine ⟨.send true (crcStep s.txCrc s.seq) (s.seq + 1#8) (stuff [s.seq]), fun s' ha hc hq =>
        (exec_txSeq ha).trans ?_⟩
      rw [← ha, ← hc, ← hq]; rfl
    | txEnd =>
      let c := crcFold s.txCrc tailMarker
      refine ⟨.send false c s.seq (tailMarker ++ checksumBytes c), fun s' ha hc hq => (exec_txEnd ha).trans ?_⟩
      subst c
      rw [← hc, ← hq]; rfl
    | _ => cases hi
  | false =>
    cases i with
    | txStart =>
      refine ⟨.send true crcInitValue s.seq headMarker, fun s' ha _ hq => (exec_txStart ha).trans ?_⟩
      rw [← hq]; rfl
    | txByte d => exact ⟨.refuse, fun s' ha _ _ => exec_txByte_closed ha d⟩
    | txSeq => exact ⟨.refuse, fun s' ha _ _ => exec_txSeq_closed ha⟩
    | txEnd => exact ⟨.refuse, fun s' ha _ _ => exec_txEnd_closed ha⟩
    | _ => cases hi

/-! ### What a stream of commands sends -/

/-- What the transmit framer is and has sent: the open frame, its checksum, and the transmit channel. -/
def framerView (s : State) : Bool × U16 × List Byte := (s.txActive, s.txCrc, txBytes s.events)

theorem framerView_eq_iff {s t : State} : framerView s = framerView t ↔
    s.txActive = t.txActive ∧ s.txCrc = t.txCrc ∧ txBytes s.events = txBytes t.events := by
  simp [framerView]

/-- The receive side neither touches the framer nor sends (R77). -/
theorem RxEffect.framerView_apply (e : RxEffect) (s : State) : framerView (e.apply s) = framerView s := by
  cases e with
  | deliver m => simp [framerView, RxEffect.apply]
  | move r msg ck => rfl
  | overflow => rfl
  | short => rfl

/-- Only the transmit commands touch the framer or send (R75). -/
theorem framerView_of_not_tx {i : Instr} {s t : State} (hi : isTxCommand i = false) (h : exec i s = .next t) :
    framerView t = framerView s := by
  cases i with
  | txStart | txByte | txSeq | txEnd => cases hi
  | crcRead | crcVerify | seqNext | statusRead => cases h; simp [framerView]
  | rxByte d => cases h; rw [rxAdvance_eq_apply, RxEffect.framerView_apply]
  | _ => cases h; rfl

/-- An effect of the transmit side acts on the framer alone. -/
theorem TxEffect.framerView_apply_congr (e : TxEffect) {s s' : State} (hv : framerView s = framerView s') :
    framerView (e.apply s) = framerView (e.apply s') := by
  obtain ⟨-, -, hsent⟩ := framerView_eq_iff.mp hv
  cases e with
  | refuse => exact hv
  | send active crc seq bytes => simp [framerView, TxEffect.apply, hsent]

/-- A transmit command but TX_SEQ acts on the framer alone: its effect is fixed by the framer and the counter, and it
does not read the counter. -/
theorem exec_framerView_congr {i : Instr} (hi : isTxCommand i = true) (hseq : i ≠ .txSeq) {s s' : State}
    (hv : framerView s = framerView s') :
    ∃ t t', exec i s = .next t ∧ exec i s' = .next t' ∧ framerView t = framerView t' := by
  have hnext : i ≠ .seqNext := by rintro rfl; cases hi
  obtain ⟨hactive, hcrc, -⟩ := framerView_eq_iff.mp hv
  obtain ⟨e, he⟩ := exec_txEffect hi s
  obtain ⟨t', ht', -, hcount⟩ := exec_ignores_seq hnext hseq s' s.seq
  let u : State := { s' with seq := s.seq }
  have hu : exec i u = .next (e.apply u) := he u hactive.symm hcrc.symm rfl
  have hsame : e.apply u = { t' with seq := s.seq } := Host.Outcome.next.inj (hu.symm.trans hcount)
  refine ⟨_, t', he s rfl rfl rfl, ht', ?_⟩
  calc framerView (e.apply s)
    _ = framerView (e.apply u) := e.framerView_apply_congr hv
    _ = framerView { t' with seq := s.seq } := by rw [hsame]
    _ = framerView t' := rfl

/-- A stream without TX_SEQ leaves the framer where its transmit commands alone leave it. -/
theorem execAll_filter_isTxCommand (cs : List Instr) (hseq : .txSeq ∉ cs) {s s' : State}
    (hv : framerView s = framerView s') :
    ∃ t t', execAll cs s = .next t ∧ execAll (cs.filter isTxCommand) s' = .next t' ∧
      framerView t = framerView t' := by
  induction cs generalizing s s' with
  | nil => exact ⟨s, s', rfl, rfl, hv⟩
  | cons i cs ih =>
    obtain ⟨hi, hcs⟩ : .txSeq ≠ i ∧ .txSeq ∉ cs := by simpa using hseq
    cases htx : isTxCommand i with
    | true =>
      obtain ⟨u, u', hu, hu', hview⟩ := exec_framerView_congr htx hi.symm hv
      rw [List.filter_cons_of_pos htx, execAll_cons_next hu, execAll_cons_next hu']
      exact ih hcs hview
    | false =>
      obtain ⟨u, hu⟩ := exec_safe i s
      rw [List.filter_cons_of_neg (by simp [htx]), execAll_cons_next hu]
      exact ih hcs ((framerView_of_not_tx htx hu).trans hv)

/-- Settles O46: the stream leaves the framer where its transmit commands alone do (`execAll_filter_isTxCommand`), and
those are TX_FRAME (`execAll_txFrame`). -/
theorem streamingIsPack : Obligations.StreamingIsPack := by
  intro cs s p a b c f hs hcs
  have hseq : .txSeq ∉ cs := fun hmem => by
    have : .txSeq ∈ cs.filter isTxCommand := List.mem_filter.mpr ⟨hmem, rfl⟩
    simp [hcs] at this
  obtain ⟨t, t', ht, ht', hview⟩ := execAll_filter_isTxCommand cs hseq (rfl : framerView s = framerView s)
  rw [hcs] at ht'
  cases (execAll_txFrame p a b c f hs).symm.trans ht'
  obtain ⟨hactive, -, hsent⟩ := framerView_eq_iff.mp hview
  refine ⟨t, ht, hactive, hsent.trans ?_⟩
  rw [txClosed_txSent_txOpened_events, txBytes_append, txBytes_map]
  rfl

/-! ### The two sides commute -/

/-- The effect of a receive command reads the receive side and the capacity, and nothing else (R80, R92). -/
theorem exec_rxEffect {i : Instr} (hi : isRxCommand i = true) (s : State) : ∃ e : RxEffect, ∀ s' : State,
    s'.rxState = s.rxState → s'.rxMsg = s.rxMsg → s'.rxCk = s.rxCk → s'.rxMaxBody = s.rxMaxBody →
    exec i s' = .next (e.apply s') := by
  cases i with
  | rxByte d =>
    refine ⟨rxEffect d s, fun s' hr hm hk hcap => exec_rxByte ?_⟩
    simp only [rxEffect, appendEffect, hr, hm, hk, hcap]
  | rxReset => exact ⟨.move .idle [] [], fun _ _ _ _ _ => rfl⟩
  | _ => cases hi

/-- The receive side keeps the framer and the counter. -/
theorem RxEffect.apply_txSide (e : RxEffect) (s : State) :
    (e.apply s).txActive = s.txActive ∧ (e.apply s).txCrc = s.txCrc ∧ (e.apply s).seq = s.seq := by
  cases e <;> exact ⟨rfl, rfl, rfl⟩

/-- The transmit side keeps the receive side and the capacity. -/
theorem TxEffect.apply_rxSide (e : TxEffect) (s : State) : (e.apply s).rxState = s.rxState ∧
    (e.apply s).rxMsg = s.rxMsg ∧ (e.apply s).rxCk = s.rxCk ∧ (e.apply s).rxMaxBody = s.rxMaxBody := by
  cases e <;> exact ⟨rfl, rfl, rfl, rfl⟩

/-- Effects of the two sides commute but for the order of their events. -/
theorem TxEffect.apply_comm (x : TxEffect) (r : RxEffect) (s : State) :
    x.apply (r.apply s) = { r.apply (x.apply s) with events := (x.apply (r.apply s)).events } := by
  cases x <;> cases r <;> rfl

/-- Effects of the two sides commute on each channel: one sends bytes, the other delivers. -/
theorem TxEffect.apply_comm_channels (x : TxEffect) (r : RxEffect) (s : State) :
    txBytes (x.apply (r.apply s)).events = txBytes (r.apply (x.apply s)).events ∧
    deliveries (x.apply (r.apply s)).events = deliveries (r.apply (x.apply s)).events ∧
    results (x.apply (r.apply s)).events = results (r.apply (x.apply s)).events := by
  cases x <;> cases r <;> simp [TxEffect.apply, RxEffect.apply]

/-- Settles O51: each command's effect is fixed by its own side, which the other leaves alone; and the effects
commute (`TxEffect.apply_comm`, `TxEffect.apply_comm_channels`). -/
theorem transmitAndReceiveIndependent : Obligations.TransmitAndReceiveIndependent := by
  intro a b s ha hb
  obtain ⟨x, hx⟩ := exec_txEffect ha s
  obtain ⟨r, hr⟩ := exec_rxEffect hb s
  obtain ⟨hactive, hcrc, hseq⟩ := r.apply_txSide s
  obtain ⟨hstate, hmsg, hck, hcap⟩ := x.apply_rxSide s
  obtain ⟨hsent, hdelivered, hresults⟩ := x.apply_comm_channels r s
  have hxs : exec a s = .next (x.apply s) := hx s rfl rfl rfl
  have hrs : exec b s = .next (r.apply s) := hr s rfl rfl rfl rfl
  have htr : execAll [a, b] s = .next (r.apply (x.apply s)) :=
    (execAll_cons_next hxs).trans (execAll_cons_next (hr _ hstate hmsg hck hcap))
  have hrt : execAll [b, a] s = .next (x.apply (r.apply s)) :=
    (execAll_cons_next hrs).trans (execAll_cons_next (hx _ hactive hcrc hseq))
  exact ⟨_, _, _, _, htr, hrt, x.apply_comm r s, hsent, hdelivered, hresults, hxs, hstate, hmsg, hck, hrs, hactive,
    hcrc, hseq⟩

end Sys2Proof.Machine

/-! SUPPORT. The receive state machine rule by rule (R78 to R86), and its two commands (R80, R92). -/

namespace Sys2Proof.Machine

/-! ### `append` and `unpack` -/

/-- A full buffer aborts (R79). -/
theorem rxAppend_full {s : State} (h : s.rxMsg.length = s.rxMaxBody) (b : Byte) :
    rxAppend b s = (false, toIdle (setRxOvf s)) :=
  if_pos h

/-- A buffer with room takes the byte (R79). -/
theorem rxAppend_room {s : State} (h : s.rxMsg.length ≠ s.rxMaxBody) (b : Byte) :
    rxAppend b s = (true, { s with rxMsg := s.rxMsg ++ [b] }) :=
  if_neg h

/-- `s8` is the two's complement value of the byte (R8, R89). -/
theorem s8_eq_toInt (f : Byte) : s8 f = f.toInt := by
  rw [s8, BitVec.toInt_eq_toNat_cond]
  split_ifs <;> omega

theorem unpack_header (a b c f : Byte) (p : List Byte) :
    unpack (a :: b :: c :: f :: p) = some ⟨a, b, c, f.toInt, p⟩ := by
  rw [unpack, s8_eq_toInt]

/-- A body of at least four bytes is a header and a payload (R88). -/
theorem exists_header {body : List Byte} (h : headerLen ≤ body.length) :
    ∃ a b c f p, body = a :: b :: c :: f :: p := by
  match body, h with
  | a :: b :: c :: f :: p, _ => exact ⟨a, b, c, f, p, rfl⟩

/-- Settles O41: the two answers of `append`, the second one byte below the capacity. -/
theorem appendWithinCapacity : Obligations.AppendWithinCapacity := by
  refine ⟨fun b s h => rxAppend_full h b, fun b s h => rxAppend_room h b, fun b s h => ?_⟩
  rw [rxAppend_room (by omega)]
  exact ⟨rfl, by simpa using h⟩

/-- Settles O42: a body of at least four bytes shows its header (`exists_header`). -/
theorem unpackSplitsHeader : Obligations.UnpackSplitsHeader := by
  refine ⟨unpack_header, fun body h => ?_⟩
  obtain ⟨a, b, c, f, p, rfl⟩ := exists_header h
  exact ⟨_, unpack_header a b c f p, rfl, rfl⟩

/-- Settles O43, from the library's two's complement value (`s8_eq_toInt`). -/
theorem rssiReading : Obligations.RssiReading := by
  refine ⟨fun f => ?_, by decide, by decide, by decide, by decide, by decide, by decide⟩
  have hdef : s8 f = if 128 ≤ f.toNat then (f.toNat : Int) - 256 else (f.toNat : Int) := by
    rw [s8]; split_ifs <;> omega
  have hlow : -128 ≤ f.toInt := BitVec.le_toInt f
  have hhigh : f.toInt < 128 := BitVec.toInt_lt
  rw [s8_eq_toInt] at hdef ⊢
  exact ⟨hdef, hlow, by omega, BitVec.ofInt_toInt⟩

/-! ### One received byte, state by state (R81 to R86) -/

/-- Settles O34: R81 is `rxIdle`. -/
theorem rxInIdle : Obligations.RxInIdle :=
  fun _ d h => congrArg Host.Outcome.next (rxAdvance_idle h d)

/-- IDLE with empty buffers is where `to_idle()` leads (R78). -/
theorem toIdle_eq_self {s : State} (hr : s.rxState = .idle) (hm : s.rxMsg = []) (hk : s.rxCk = []) :
    toIdle s = s := by
  have hmove := RxEffect.move_apply_self s hr
  rwa [hm, hk] at hmove

/-- The invariant leaves nothing for `to_idle()` to do in IDLE (R25, R78). -/
theorem toIdle_of_inv {s : State} (hs : s.Inv) (h : s.rxState = .idle) : toIdle s = s := by
  obtain ⟨-, -, -, hempty, -⟩ := hs
  obtain ⟨hm, hk⟩ := hempty (.inl h)
  exact toIdle_eq_self h hm hk

/-- Settles O35: R82 is `rxWaitStart`; a second ESC aborts, and IDLE ignores the 0x02 after it. -/
theorem rxInWaitStart : Obligations.RxInWaitStart := by
  refine ⟨fun s d h => congrArg Host.Outcome.next (rxAdvance_waitStart h d), fun s hs h => ?_⟩
  calc execAll [.rxByte 0x10#8, .rxByte 0x10#8, .rxByte 0x02#8] s
    _ = execAll [.rxByte 0x10#8, .rxByte 0x02#8] { s with rxState := .waitStart } :=
      execAll_cons_next (rxInIdle s 0x10#8 h)
    _ = .next (toIdle s) := rfl
    _ = .next s := by rw [toIdle_of_inv hs h]

/-- Settles O36: R83 is `rxMessage`, with the two answers of `append`. -/
theorem rxInMessage : Obligations.RxInMessage := by
  intro s d h
  have hrule : exec (.rxByte d) s = .next (rxMessage d s) := congrArg Host.Outcome.next (rxAdvance_message h d)
  rw [hrule, rxMessage]
  by_cases hfull : s.rxMsg.length = s.rxMaxBody
  · rw [rxAppend_full hfull, if_pos hfull]; rfl
  · rw [rxAppend_room hfull, if_neg hfull]; rfl

/-- Settles O37: R84 is `rxMessageEscape`, with the two answers of `append`. -/
theorem rxInMessageEscape : Obligations.RxInMessageEscape := by
  intro s d h
  have hrule : exec (.rxByte d) s = .next (rxMessageEscape d s) :=
    congrArg Host.Outcome.next (rxAdvance_messageEscape h d)
  rw [hrule, rxMessageEscape]
  by_cases hfull : s.rxMsg.length = s.rxMaxBody
  · rw [rxAppend_full hfull, if_pos hfull]; rfl
  · rw [rxAppend_room hfull, if_neg hfull]; rfl

/-- Settles O38: R85 is `rxChecksum1`. -/
theorem rxInChecksum1 : Obligations.RxInChecksum1 :=
  fun _ d h => congrArg Host.Outcome.next (rxAdvance_checksum1 h d)

section
variable {s : State} {d : Byte} (h : s.rxState = .checksum2)
include h

/-- A verified frame whose body holds a header is delivered (R86). -/
theorem rxEffect_deliver {m : Message} (hck : compute (s.rxMsg ++ tailMarker) = s.rxCk ++ [d])
    (hu : unpack s.rxMsg = some m) : rxEffect d s = .deliver m := by
  simp only [rxEffect, h, verify_iff.mpr hck, hu, if_true]

/-- A verified frame whose body is too short for a header is short (R86). -/
theorem rxEffect_short (hck : compute (s.rxMsg ++ tailMarker) = s.rxCk ++ [d]) (hlen : s.rxMsg.length < headerLen) :
    rxEffect d s = .short := by
  simp only [rxEffect, h, verify_iff.mpr hck, unpack_short hlen, if_true]

/-- A frame whose checksum does not match leads to IDLE (R86, R106). -/
theorem rxEffect_mismatch (hck : compute (s.rxMsg ++ tailMarker) ≠ s.rxCk ++ [d]) :
    rxEffect d s = .move .idle [] [] := by
  simp only [rxEffect, h, verify_iff, hck, if_false]

end

/-- Settles O39, from the three ways a frame completes; checksum bytes in the wrong order are a mismatch. -/
theorem rxInChecksum2 : Obligations.RxInChecksum2 := by
  refine ⟨fun s d a b c f p h hm hck => ?_, fun s d h hlen hck => ?_, fun s d h hck => ?_,
    fun s hi lo h hcompute hlo hne => ?_⟩
  · have hu : unpack s.rxMsg = some ⟨a, b, c, f.toInt, p⟩ := hm ▸ unpack_header a b c f p
    exact exec_rxByte (rxEffect_deliver h hck.symm hu)
  · exact exec_rxByte (rxEffect_short h hck.symm hlen)
  · exact exec_rxByte (rxEffect_mismatch h hck.symm)
  · have hck : compute (s.rxMsg ++ tailMarker) ≠ s.rxCk ++ [hi] := by
      rw [show compute (s.rxMsg ++ tailMarker) = [hi, lo] from hcompute, hlo]
      exact fun heq => hne (List.cons.inj heq).1
    exact exec_rxByte (rxEffect_mismatch h hck)

/-! ### What RX_BYTE leaves unchanged, and where it can lead (R78, R90, R105) -/

/-- A received byte touches the receive side and the observation only. -/
theorem RxEffect.apply_frame (e : RxEffect) (s : State) : e.apply s =
    { s with rxState := (e.apply s).rxState, rxMsg := (e.apply s).rxMsg, rxCk := (e.apply s).rxCk
             rxOvf := (e.apply s).rxOvf, rxShort := (e.apply s).rxShort, events := (e.apply s).events } := by
  cases e <;> rfl

/-- An effect emits its one delivery, or nothing (R90). -/
theorem RxEffect.apply_events_cases (e : RxEffect) (s : State) :
    (e.apply s).events = s.events ∨ ∃ m, e = .deliver m ∧ (e.apply s).events = s.events ++ [.deliver m] := by
  cases e with
  | deliver m => exact .inr ⟨m, rfl, rfl⟩
  | move r msg ck => exact .inl rfl
  | overflow => exact .inl rfl
  | short => exact .inl rfl

/-- Only CHECKSUM_2 delivers (R86, R90). -/
theorem rxEffect_eq_deliver {d : Byte} {s : State} {m : Message} (h : rxEffect d s = .deliver m) :
    s.rxState = .checksum2 := by
  cases hr : s.rxState with
  | checksum2 => rfl
  | idle | waitStart | message | messageEscape | checksum1 => grind [rxEffect, appendEffect]

/-- A move from another state to IDLE clears both buffers (R78). -/
theorem rxEffect_move_idle {d : Byte} {s : State} {msg ck : List Byte} (hs : s.rxState ≠ .idle)
    (h : rxEffect d s = .move .idle msg ck) : msg = [] ∧ ck = [] := by
  cases hr : s.rxState with
  | idle => exact absurd hr hs
  | waitStart | message | messageEscape | checksum1 | checksum2 => grind [rxEffect, appendEffect]

/-- Any other effect that ends in IDLE goes through `to_idle()` (R78). -/
theorem RxEffect.apply_idle_cases {e : RxEffect} {s : State} (h : (e.apply s).rxState = .idle) :
    (∃ msg ck, e = .move .idle msg ck) ∨ (e.apply s).rxMsg = [] ∧ (e.apply s).rxCk = [] := by
  cases e with
  | move r msg ck => cases (h : r = .idle); exact .inl ⟨msg, ck, rfl⟩
  | deliver m => exact .inr ⟨rfl, rfl⟩
  | overflow => exact .inr ⟨rfl, rfl⟩
  | short => exact .inr ⟨rfl, rfl⟩

/-- Only the receive commands move the receive state machine (R77). -/
theorem exec_rxState_of_not_rx {i : Instr} {s t : State} (hi : isRxCommand i = false) (h : exec i s = .next t) :
    t.rxState = s.rxState := by
  cases i with
  | rxByte d => cases hi
  | rxReset => cases hi
  | txStart | txByte | txSeq | txEnd => obtain rfl | rfl := ite_next_cases h <;> rfl
  | _ => cases h; rfl

/-- Settles O40: RX_RESET is `to_idle()`, and a received byte reaches IDLE by a row of the receive table that clears
the buffers (`rxEffect_move_idle`) or through `to_idle()`. -/
theorem idleClearsBuffers : Obligations.IdleClearsBuffers := by
  intro i s t h hs ht
  cases i with
  | rxReset => cases h; exact ⟨rfl, rfl⟩
  | rxByte d =>
    cases (exec_rxByte rfl).symm.trans h
    obtain ⟨msg, ck, he⟩ | hempty := RxEffect.apply_idle_cases ht
    · rw [he]
      exact rxEffect_move_idle hs he
    · exact hempty
  | _ => exact absurd ((exec_rxState_of_not_rx rfl h).symm.trans ht) hs

/-! ### The two commands -/

/-- Settles O29, from the receive table: the frame of an effect, and its one delivery in CHECKSUM_2. -/
theorem rxByteCommand : Obligations.RxByteCommand := by
  refine ⟨fun d s => ⟨_, exec_rxByte rfl, RxEffect.apply_frame _ s, fun h => ?_, fun h => ?_, ?_⟩, fun d => ?_,
    stepWord_illegal_reserved (f := .b) rfl, fun s t hs h => ?_⟩
  · exact (RxEffect.apply_rxOvf _ s).mpr (.inl h)
  · exact (RxEffect.apply_rxShort _ s).mpr (.inl h)
  · exact (RxEffect.apply_events_cases _ s).imp_right fun ⟨m, he, hev⟩ => ⟨rxEffect_eq_deliver he, m, hev⟩
  · exact (congrArg decode (wordOf_setWidth (by decide) 0x20#8 d).symm).trans (decode_encode (.rxByte d))
  · cases (rxInIdle s 0x10#8 hs).symm.trans h
    rfl

/-- Settles O30: RX_RESET is `to_idle()`, which changes nothing in IDLE with empty buffers. -/
theorem rxResetCommand : Obligations.RxResetCommand :=
  ⟨fun _ => rfl, fun _ hs h => congrArg Host.Outcome.next (toIdle_of_inv hs h), decode_encode .rxReset,
    stepWord_illegal_z rfl⟩

end Sys2Proof.Machine

/-! SUPPORT. The receive machine over a packed frame (R93). -/

namespace Sys2Proof.Machine

/-- The state after bytes received one after another (R80, R42). -/
def rxFeed (xs : List Byte) (s : State) : State := xs.foldl (fun t d => rxAdvance d t) s

theorem execAll_rxByte (xs : List Byte) (s : State) : execAll (xs.map .rxByte) s = .next (rxFeed xs s) := by
  induction xs generalizing s with
  | nil => rfl
  | cons d xs ih => exact ih (rxAdvance d s)

theorem rxFeed_append (xs ys : List Byte) (s : State) : rxFeed (xs ++ ys) s = rxFeed ys (rxFeed xs s) :=
  List.foldl_append

section
variable {s : State}

/-- The head marker opens an empty message (R81, R82). -/
theorem rxFeed_headMarker (h : s.rxState = .idle) :
    rxFeed headMarker s = { s with rxState := .message, rxMsg := [] } := by
  calc rxFeed headMarker s
    _ = rxAdvance startByte (rxIdle esc s) := congrArg (rxAdvance startByte) (rxAdvance_idle h esc)
    _ = { s with rxState := .message, rxMsg := [] } := rfl

/-- The tail marker ends the body (R83, R84). -/
theorem rxFeed_tailMarker (h : s.rxState = .message) :
    rxFeed tailMarker s = { s with rxState := .checksum1, rxCk := [] } := by
  calc rxFeed tailMarker s
    _ = rxAdvance endByte (rxMessage esc s) := congrArg (rxAdvance endByte) (rxAdvance_message h esc)
    _ = { s with rxState := .checksum1, rxCk := [] } := rfl

/-- One stuffed byte is received as the byte it stands for (R68, R83, R84). -/
theorem rxFeed_stuff_byte (h : s.rxState = .message) (hroom : s.rxMsg.length ≠ s.rxMaxBody) (d : Byte) :
    rxFeed (stuff [d]) s = { s with rxMsg := s.rxMsg ++ [d] } := by
  by_cases hd : d = esc
  · subst hd
    have hroom' : ({ s with rxState := .messageEscape } : State).rxMsg.length ≠ s.rxMaxBody := hroom
    calc rxFeed (stuff [esc]) s
      _ = rxAdvance esc (rxMessage esc s) := congrArg (rxAdvance esc) (rxAdvance_message h esc)
      _ = rxMessageEscape esc { s with rxState := .messageEscape } := rfl
      _ = { s with rxState := .message, rxMsg := s.rxMsg ++ [esc] } := by
        rw [rxMessageEscape, rxAppend_room hroom']; rfl
      _ = { s with rxMsg := s.rxMsg ++ [esc] } := by rw [← h]
  · calc rxFeed (stuff [d]) s
      _ = rxAdvance d s := by rw [stuff_other hd]; rfl
      _ = { s with rxMsg := s.rxMsg ++ [d] } := by
        rw [rxAdvance_message h, rxMessage, if_neg hd, rxAppend_room hroom]

/-- A stuffed list that fits the buffer is received as the list (R68, R79). -/
theorem rxFeed_stuff (xs : List Byte) (h : s.rxState = .message)
    (hfit : s.rxMsg.length + xs.length ≤ s.rxMaxBody) :
    rxFeed (stuff xs) s = { s with rxMsg := s.rxMsg ++ xs } := by
  induction xs generalizing s with
  | nil => simp [rxFeed]
  | cons d xs ih =>
    rw [List.length_cons] at hfit
    let t : State := { s with rxMsg := s.rxMsg ++ [d] }
    have hbyte : rxFeed (stuff [d]) s = t := rxFeed_stuff_byte h (by omega) d
    have hrest : t.rxMsg.length + xs.length ≤ t.rxMaxBody := by simp [t]; omega
    calc rxFeed (stuff ([d] ++ xs)) s
      _ = rxFeed (stuff xs) t := by rw [stuff_append, rxFeed_append, hbyte]
      _ = { t with rxMsg := t.rxMsg ++ xs } := ih h hrest
      _ = { s with rxMsg := s.rxMsg ++ ([d] ++ xs) } := by simp [t]

end

/-- A frame without its last byte. -/
def frameButLast (body : List Byte) : List Byte :=
  headMarker ++ stuff body ++ tailMarker ++ [hiByte (crc16 (body ++ tailMarker))]

theorem frameOf_eq_concat (body : List Byte) :
    frameOf body = frameButLast body ++ [loByte (crc16 (body ++ tailMarker))] :=
  (List.append_assoc _ [_] [_]).symm

/-- A frame but for its last byte leaves its body and the first checksum byte in the buffers (R81 to R85). -/
theorem rxFeed_frameButLast {s : State} {body : List Byte} (h : s.rxState = .idle)
    (hfit : body.length ≤ s.rxMaxBody) : rxFeed (frameButLast body) s =
      { s with rxState := .checksum2, rxMsg := body, rxCk := [hiByte (crc16 (body ++ tailMarker))] } := by
  rw [frameButLast, rxFeed_append, rxFeed_append, rxFeed_append, rxFeed_headMarker h,
    rxFeed_stuff body rfl (by simpa using hfit), rxFeed_tailMarker rfl]
  rfl

/-- Settles O47: the frame but for its last byte reaches CHECKSUM_2 (`rxFeed_frameButLast`), and the last byte
completes the checksum that R86 verifies (`rxInChecksum2`). -/
theorem roundTrip : Obligations.RoundTrip := by
  intro s p a b c f hs hfit
  let body := frameBody p a b c f
  let u : State := { s with
    rxState := .checksum2, rxMsg := body, rxCk := [hiByte (crc16 (body ++ tailMarker))] }
  have hbody : body.length ≤ s.rxMaxBody := (Nat.add_comm p.length 4).trans_le hfit
  have hu : execAll ((frameButLast body).map .rxByte) s = .next u := by
    rw [execAll_rxByte, rxFeed_frameButLast hs hbody]
  have hpack : pack p a b c f = frameButLast body ++ [loByte (crc16 (body ++ tailMarker))] := frameOf_eq_concat body
  obtain ⟨hdeliver, -⟩ := rxInChecksum2
  refine ⟨⟨u, ?_, rfl⟩, ?_⟩
  · rw [hpack, List.dropLast_concat, hu]
  · rw [hpack, List.map_append, execAll_append hu]
    exact execAll_cons_next (hdeliver u _ a b c f p rfl rfl rfl)

end Sys2Proof.Machine

/-! SUPPORT. The link-frame counter: SEQ_NEXT, TX_SEQ, and runs of both (R95, R97 to R100). -/

namespace Sys2Proof.Machine

/-! ### One command -/

/-- SEQ_NEXT returns the count and moves it (R97). -/
theorem exec_seqNext (s : State) : exec .seqNext s =
    .next { s with seq := s.seq + 1#8, events := s.events ++ [.result (s.seq.setWidth 16)] } :=
  congrArg (fun t => Host.Outcome.next (emitResult (zext16 s.seq) t)) (seqTake_snd s)

/-- In an open frame TX_SEQ is TX_BYTE of the count, with the counter moved (R98). -/
theorem exec_txSeq_eq_txByte {s : State} (hs : s.txActive = true) :
    exec .txSeq s = exec (.txByte s.seq) { s with seq := s.seq + 1#8 } :=
  (exec_txSeq hs).trans (exec_txByte (s := { s with seq := s.seq + 1#8 }) hs s.seq).symm

/-- In an open frame both movers of the counter move it by one and leave the frame open (R97, R98). -/
theorem exec_moves_seq {i : Instr} {s : State} (hs : s.txActive = true) (hi : i = .seqNext ∨ i = .txSeq) :
    ∃ t, exec i s = .next t ∧ t.txActive = true ∧ t.seq = s.seq + 1#8 := by
  obtain rfl | rfl := hi
  · exact ⟨_, exec_seqNext s, hs, rfl⟩
  · exact ⟨_, exec_txSeq hs, hs, rfl⟩

/-! ### Runs of commands -/

/-- The state after `n` counts have been taken and returned in order (R99). -/
def seqCounted (n : Nat) (s : State) : State :=
  { s with
    seq := s.seq + BitVec.ofNat 8 n
    events := s.events ++ (List.range n).map fun k => .result ((s.seq + BitVec.ofNat 8 k).setWidth 16) }

theorem seqCounted_zero (s : State) : seqCounted 0 s = s := by
  simp [seqCounted]

/-- One more SEQ_NEXT takes the next count (R95, R99). -/
theorem exec_seqNext_seqCounted (n : Nat) (s : State) :
    exec .seqNext (seqCounted n s) = .next (seqCounted (n + 1) s) := by
  rw [exec_seqNext]
  simp [seqCounted, List.range_succ, BitVec.ofNat_add, BitVec.add_assoc]

theorem execAll_replicate_seqNext (n : Nat) (s : State) :
    execAll (List.replicate n .seqNext) s = .next (seqCounted n s) := by
  induction n with
  | zero => rw [seqCounted_zero]; rfl
  | succ n ih =>
    rw [List.replicate_succ', execAll_append ih]
    exact execAll_cons_next (exec_seqNext_seqCounted n s)

/-- In an open frame any mix of the two movers moves the counter by its length (R100). -/
theorem execAll_movers_seq (cs : List Instr) {s : State} (hs : s.txActive = true)
    (hcs : ∀ i ∈ cs, i = .seqNext ∨ i = .txSeq) :
    ∃ t, execAll cs s = .next t ∧ t.seq = s.seq + BitVec.ofNat 8 cs.length := by
  induction cs generalizing s with
  | nil => exact ⟨s, rfl, (BitVec.add_zero s.seq).symm⟩
  | cons i cs ih =>
    obtain ⟨hi, hcs⟩ := List.forall_mem_cons.mp hcs
    obtain ⟨u, hu, hactive, hstep⟩ := exec_moves_seq hs hi
    obtain ⟨t, ht, hrest⟩ := ih hactive hcs
    refine ⟨t, (execAll_cons_next hu).trans ht, ?_⟩
    calc t.seq
      _ = s.seq + 1#8 + BitVec.ofNat 8 cs.length := by rw [hrest, hstep]
      _ = s.seq + BitVec.ofNat 8 (1 + cs.length) := by rw [BitVec.add_assoc, BitVec.ofNat_add]
      _ = s.seq + BitVec.ofNat 8 (i :: cs).length := by rw [List.length_cons, Nat.add_comm]

/-! ### The obligations -/

/-- Settles O27: TX_SEQ is TX_BYTE of the count (`exec_txSeq_eq_txByte`), whose effect is `txByteCommand`; the example
opens a frame, sends two bytes and takes the count. -/
theorem txSeqCommand : Obligations.TxSeqCommand := by
  obtain ⟨hbyte, -⟩ := txByteCommand
  refine ⟨fun s hs => (exec_txSeq_eq_txByte hs).trans (hbyte s.seq { s with seq := s.seq + 1#8 } hs),
    fun s hs => exec_txSeq_eq_txByte hs, fun s hs => exec_txSeq_closed hs, decode_encode .txSeq,
    stepWord_illegal_z rfl, fun s hs hseq => ?_⟩
  let u := txSent [0x01#8, 0x15#8] (txOpened s)
  refine ⟨{ txSent [s.seq] u with seq := s.seq + 1#8 }, ?_, ?_, ?_⟩
  · calc execAll (.txStart :: ([0x01#8, 0x15#8].map .txByte ++ [.txSeq])) s
      _ = execAll ([0x01#8, 0x15#8].map .txByte ++ [.txSeq]) (txOpened s) := execAll_cons_next (exec_txStart hs)
      _ = execAll [.txSeq] u := execAll_append (execAll_txByte _ rfl)
      _ = _ := execAll_cons_next (exec_txSeq rfl)
  · rw [hseq]; rfl
  · rw [txSent_append, hseq]
    exact List.append_assoc s.events _ _

/-- Settles O31: the count is returned and moved (`exec_seqNext`); three commands from reset are the run of length
three (`execAll_replicate_seqNext`). -/
theorem seqNextCommand : Obligations.SeqNextCommand :=
  ⟨exec_seqNext, fun s hs => by rw [exec_seqNext, hs]; rfl, decode_encode .seqNext, stepWord_illegal_z rfl,
    execAll_replicate_seqNext 3 State.reset⟩

/-- Settles O49, by induction on the run of SEQ_NEXT (`execAll_replicate_seqNext`) and on the mix of both commands
(`execAll_movers_seq`). -/
theorem counterRunsInOrder : Obligations.CounterRunsInOrder :=
  ⟨execAll_replicate_seqNext, fun cs _ hs hcs => execAll_movers_seq cs hs hcs⟩

end Sys2Proof.Machine

/-! SUPPORT. The commands of control and status (R101 to R103), and the one effect of every illegal command (R104). -/

namespace Sys2Proof.Machine

/-! ### Illegal commands -/

/-- A transmit command out of sequence is discarded whole, whichever of the four it is (R74, R104). -/
theorem exec_of_outOfSequence {i : Instr} {s : State} (h : OutOfSequence i s) :
    exec i s = .next (illegalCommand s) := by
  obtain ⟨rfl, hs⟩ | ⟨rfl | rfl | ⟨d, rfl⟩, hs⟩ := h
  · exact exec_txStart_open hs
  · exact exec_txSeq_closed hs
  · exact exec_txEnd_closed hs
  · exact exec_txByte_closed hs d

/-- The step that takes an illegal word sets CMD_ERR and leaves the words after it (R104). -/
theorem step_illegal {s : State} {w : Word} {rest : List Input} {e : IllegalReason}
    (h : s.inputs = .command w :: rest) (hd : decode w = .error e) :
    step s = .next (illegalCommand { s with inputs := rest }) :=
  (step_command h).trans (stepWord_of_decode_error hd _)

/-! ### STATUS -/

/-- STATUS with neither receive error: the bits of CMD_ERR and TX_ACTIVE and the receive code (R27). -/
theorem statusWord_of_no_rx_error {s : State} (ho : s.rxOvf = false) (hs : s.rxShort = false) :
    statusWord s = zextBit s.cmdErr ||| (rxCode s.rxState <<< 8) ||| (zextBit s.txActive <<< 11) := by
  simp [statusWord, ho, hs, zextBit]

/-- STATUS_READ returns whatever STATUS is (R102). -/
theorem exec_statusRead_of_statusWord {s : State} {v : U16} (h : statusWord s = v) :
    exec .statusRead s = .next { s with events := s.events ++ [.result v] } :=
  h ▸ rfl

/-- Writing 1 to a sticky bit clears it and writing 0 keeps it (R28, R103). -/
theorem clearSticky_eq (m : BitVec 3) (s : State) : clearSticky m s =
    { s with
      cmdErr := s.cmdErr && !m.getLsbD 0
      rxOvf := s.rxOvf && !m.getLsbD 1
      rxShort := s.rxShort && !m.getLsbD 2 } := by
  have hbit (b c : Bool) : (if c then false else b) = (b && !c) := by cases c <;> simp
  simp only [clearSticky, hbit]
  rfl

/-! ### The obligations -/

/-- Settles O15: R74's refusals are `exec_of_outOfSequence`; after an illegal word (`step_illegal`) the next word is
still issued and decodes to its command (`step_decoded`). -/
theorem illegalCommandEffect : Obligations.IllegalCommandEffect :=
  ⟨fun _ _ s hd => stepWord_of_decode_error hd s,
    fun _ hs => exec_of_outOfSequence (.inl ⟨rfl, hs⟩),
    fun _ _ hs hi => exec_of_outOfSequence (.inr ⟨hi, hs⟩),
    fun _ _ i _ _ hd h => ⟨_, step_illegal h hd, step_decoded rfl (decode_encode i)⟩⟩

/-- Settles O20; a word of the opcode with any other bit set is illegal (`stepWord_illegal_z`). -/
theorem nopCommand : Obligations.NopCommand :=
  ⟨fun _ => rfl, decode_encode .nop, stepWord_illegal_z rfl⟩

/-- Settles O32: the result is STATUS, whose corner values have neither receive error (`statusWord_of_no_rx_error`). -/
theorem statusReadCommand : Obligations.StatusReadCommand := by
  refine ⟨fun _ => rfl, decode_encode .statusRead, stepWord_illegal_z rfl, rfl, ?_, ?_, ?_⟩ <;>
  · intro s hr ha hc ho hs
    apply exec_statusRead_of_statusWord
    rw [statusWord_of_no_rx_error ho hs, hr, ha, hc]
    rfl

/-- Settles O33: the mask clears bit by bit (`clearSticky_eq`); the word is the encoding, and a bit above the mask makes
it illegal (`stepWord_illegal_reserved`). -/
theorem statusClearCommand : Obligations.StatusClearCommand := by
  refine ⟨fun m s => congrArg Host.Outcome.next (clearSticky_eq m s), fun _ => rfl, fun m => ?_,
    stepWord_illegal_reserved (f := .m) rfl⟩
  exact (congrArg decode (wordOf_setWidth (by decide) 0x41#8 m).symm).trans (decode_encode (.statusClear m))

end Sys2Proof.Machine

/-! SUPPORT. The sticky bits one step can set (R110), and the step with nothing issued (R118). -/

namespace Sys2Proof.Machine

/-- A command has an effect of the receive side, or sets neither RX_OVF nor RX_SHORT (R27). -/
theorem exec_rxEffect_or_sets_no_rx_error {i : Instr} {s t : State} (h : exec i s = .next t) :
    (∃ e : RxEffect, t = e.apply s) ∨
    (t.rxOvf = true → s.rxOvf = true) ∧ (t.rxShort = true → s.rxShort = true) := by
  obtain ⟨m, -, rfl⟩ | ⟨d, -, rfl⟩ | ⟨-, rfl⟩ | ⟨-, ho, hs⟩ := exec_sticky_cases h
  · exact .inr (by simp)
  · exact .inl ⟨rxEffect d s, rfl⟩
  · exact .inr ⟨id, id⟩
  · exact .inr ⟨ho.symm.trans, hs.symm.trans⟩

/-- A step has an effect of the receive side, or sets neither RX_OVF nor RX_SHORT (R27). -/
theorem step_rxEffect_or_sets_no_rx_error {s t : State} (h : step s = .next t) :
    (∃ (e : RxEffect) (rest : List Input), t = e.apply { s with inputs := rest }) ∨
    (t.rxOvf = true → s.rxOvf = true) ∧ (t.rxShort = true → s.rxShort = true) := by
  obtain ⟨-, hn⟩ | ⟨w, rest, i, -, -, hn⟩ | ⟨w, rest, e, -, -, hn⟩ | ⟨rest, -, hn⟩ := step_cases s
  · cases hn.symm.trans h; exact .inr ⟨id, id⟩
  · exact (exec_rxEffect_or_sets_no_rx_error (hn.symm.trans h)).imp_left fun ⟨e, he⟩ => ⟨e, rest, he⟩
  · cases hn.symm.trans h; exact .inr ⟨id, id⟩
  · cases hn.symm.trans h; exact .inr (by simp)

/-! ### The obligations -/

/-- Settles O16: a step that sets RX_OVF or RX_SHORT is an effect of the receive side
(`step_rxEffect_or_sets_no_rx_error`), which leaves CMD_ERR; overflow and a short body are different effects. -/
theorem atMostOneStickyBit : Obligations.AtMostOneStickyBit := by
  intro s t h
  obtain ⟨e, rest, rfl⟩ | ⟨ho, hs⟩ := step_rxEffect_or_sets_no_rx_error h
  · have hcmd : (e.apply { s with inputs := rest }).cmdErr = s.cmdErr := RxEffect.apply_cmdErr _ _
    refine ⟨fun ⟨h0, h1, _⟩ => Bool.eq_false_iff.mp h0 (hcmd.symm.trans h1),
      fun ⟨h0, h1, _⟩ => Bool.eq_false_iff.mp h0 (hcmd.symm.trans h1), fun ⟨ho0, ho1, hs0, hs1⟩ => ?_⟩
    have hover : e = .overflow := by simpa [ho0] using (RxEffect.apply_rxOvf e _).mp ho1
    have hshort : e = .short := by simpa [hs0] using (RxEffect.apply_rxShort e _).mp hs1
    cases hover.symm.trans hshort
  · exact ⟨fun ⟨_, _, h0, h1⟩ => Bool.eq_false_iff.mp h0 (ho h1),
      fun ⟨_, _, h0, h1⟩ => Bool.eq_false_iff.mp h0 (hs h1), fun ⟨h0, h1, _⟩ => Bool.eq_false_iff.mp h0 (ho h1)⟩

/-- Settles O7: with nothing issued there is no input to take (`takeInput_nil`). -/
theorem stepWithoutInput : Obligations.StepWithoutInput := by
  intro s h
  simp [step, takeInput_nil h]

end Sys2Proof.Machine

/-! SUPPORT. Reset (R119 to R121), and the two ways an open frame ends (R126). -/

namespace Sys2Proof.Machine

/-! ### Reset -/

/-- The step that takes a reset is the platform's reset of the state with the input taken (R120). -/
theorem step_reset {s : State} {rest : List Input} (h : s.inputs = .reset :: rest) :
    step s = .next (hardReset { s with inputs := rest }) := by
  simp [step, takeInput_cons h]

/-- Reset reads the capacity, the inputs and the observation, and nothing of S (R119, R29). -/
theorem hardReset_congr {s s' : State} (hcap : s.rxMaxBody = s'.rxMaxBody) (hin : s.inputs = s'.inputs)
    (hev : s.events = s'.events) : hardReset s = hardReset s' := by
  simp only [hardReset, hcap, hin, hev]

/-! ### The end of an open frame -/

/-- TX_END is the one command that closes an open frame: no other touches `tx_active` but to set it (R71 to R73). -/
theorem eq_txEnd_of_closes {i : Instr} {s t : State} (h : exec i s = .next t) (hs : s.txActive = true)
    (ht : t.txActive = false) : i = .txEnd := by
  cases htx : isTxCommand i with
  | false =>
    obtain ⟨hsame, -⟩ := framerView_eq_iff.mp (framerView_of_not_tx htx h)
    cases ht.symm.trans (hsame.trans hs)
  | true =>
    cases i with
    | txEnd => rfl
    | txStart => cases ht.symm.trans (txActive_of_exec_txStart h)
    | txByte d => cases (exec_txByte hs d).symm.trans h; cases ht.symm.trans hs
    | txSeq => cases (exec_txSeq hs).symm.trans h; cases ht.symm.trans hs
    | _ => cases htx

/-- A step that closes an open frame took a reset, or took the word of TX_END and closed the frame with its checksum:
with nothing issued and on an illegal word `tx_active` stays (R126). -/
theorem step_closes_cases {s t : State} (h : step s = .next t) (hs : s.txActive = true) (ht : t.txActive = false) :
    (∃ rest, s.inputs = .reset :: rest) ∨
    (∃ rest, s.inputs = .command (encode .txEnd) :: rest ∧ t = txClosed { s with inputs := rest }) := by
  obtain ⟨-, hst⟩ | ⟨w, rest, i, hin, hd, hst⟩ | ⟨w, rest, e, -, -, hst⟩ | ⟨rest, hin, -⟩ := step_cases s
  · cases hst.symm.trans h; cases ht.symm.trans hs
  · have hexec : exec i { s with inputs := rest } = .next t := hst.symm.trans h
    obtain rfl : i = .txEnd := eq_txEnd_of_closes hexec hs ht
    rw [← encode_of_decode hd] at hin
    exact .inr ⟨rest, hin, Host.Outcome.next.inj (hexec.symm.trans (exec_txEnd hs))⟩
  · cases hst.symm.trans h; cases ht.symm.trans hs
  · exact .inl ⟨rest, hin⟩

/-! ### The obligations -/

/-- Settles O12: both steps are resets (`step_reset`), of states that agree on all that reset reads
(`hardReset_congr`). -/
theorem resetForgetsTheRun : Obligations.ResetForgetsTheRun := by
  intro s s' rest h h' hcap hev
  rw [step_reset h, step_reset h']
  exact congrArg _ (hardReset_congr hcap rfl hev)

/-- Settles O52: what closes a frame is `step_closes_cases`; conversely a reset closes it, and so does TX_END, open or
not (`txActive_of_exec_txEnd`). -/
theorem openFrameEndsTwoWays : Obligations.OpenFrameEndsTwoWays := by
  refine ⟨fun s t h hs ht => ?_, fun s rest h => ?_⟩
  · refine (step_closes_cases h hs ht).imp_right ?_
    rintro ⟨rest, hin, rfl⟩
    exact ⟨rest, hin, rfl⟩
  · obtain hreset | hend := h
    · exact ⟨_, step_reset hreset, rfl⟩
    · obtain ⟨t, ht⟩ := exec_safe .txEnd { s with inputs := rest }
      exact ⟨t, (step_decoded hend (decode_encode .txEnd)).trans ht, txActive_of_exec_txEnd ht⟩

/-- Settles O11: the step is a reset (`step_reset`), whose fields are those of the initial state. -/
theorem resetValues : Obligations.ResetValues := by
  refine ⟨fun s rest h => ⟨_, step_reset h, ?_⟩, ?_⟩
  · exact ⟨rfl, rfl, rfl, rfl, rfl, rfl, rfl, rfl, rfl, rfl, rfl⟩
  · exact ⟨rfl, rfl, rfl, rfl, rfl, rfl, rfl, rfl, rfl, rfl⟩

end Sys2Proof.Machine
